-- ==== Sys2Proof/Word.lean ====
section
/-! DEFINITION. Word.lean: the bytes of a management line, the words of the video link, and the small numbers that
name a channel, a sequence and a frame. -/

namespace Sys2Proof

/-- One byte of a packet, a payload or the bitmap memory. -/
abbrev Byte := BitVec 8

/-- One 10-bit word of one lane (00_scope.md, Key Parameters). -/
abbrev Lane := BitVec 10

/-- One data word of the link: the luma and the chroma lane at the same word clock (R96). -/
structure DataWord where
  luma : Lane
  chroma : Lane
deriving DecidableEq, Repr

/-- A frame number: 16 bits, counted modulo 65536 (00_scope.md, Frame numbers). -/
abbrev FrameNo := BitVec 16

/-- A message's sequence on its channel: 4 bits, counted modulo 16 (R142). -/
abbrev SeqNo := BitVec 4

/-- One of the four message channels (R140). -/
abbrev Chan := Fin 4

end Sys2Proof
end

