-- ==== Sys2Proof/Syntax.lean ====
section
/-! DEFINITION. Syntax.lean: the commands of the part, one constructor for each row of spec/opcode_table.json, in the
table's order.

The message rows carry a whole message: channel, sequence and payload bytes, laid out as chapter 11 gives (log 1). -/

namespace Sys2Proof

/-- A command: an event on a pin or on the link, an event of the reference clock or of the store, or a complete
message. -/
inductive Instr where
  /-- HARD_RESET (R191): RESET_N low or power-on, up to its release, at which the straps read `strap`. -/
  | hardReset (strap : BitVec 5)
  /-- LINE_MARKER (R96): a marker with `typeWord` arrives; `data` are the data words since the marker before it,
  `refClks` the REF_CLK periods since then. -/
  | lineMarker (typeWord : Lane) (data : List DataWord) (refClks : Nat)
  /-- INPUT_FRAME_HEAD (R97): a FRAME_HEAD marker arrives. Where the line it completes carries a message, `headFirst`
  says that the head is taken before that message (R124; log 5). -/
  | inputFrameHead (data : List DataWord) (refClks : Nat) (headFirst : Bool)
  /-- ABSENCE_EXPIRY (R106): `refClks` REF_CLK periods have passed since the last marker. -/
  | absenceExpiry (refClks : Nat)
  /-- GENERATOR_LINE_BEGIN (R114). -/
  | generatorLineBegin
  /-- HOLDOVER_LIMIT_REACHED (R115). -/
  | holdoverLimitReached
  /-- SET_APPLICATION (R55). -/
  | setApplication
  /-- ASSEMBLY_TIMEOUT (R148). -/
  | assemblyTimeout
  /-- RESPONSE_EMISSION (R132): a free outbound line of `width` data words fixes its content. -/
  | responseEmission (width : Nat)
  /-- WIN_STAGE (R39). -/
  | winStage (ch : Chan) (seq : SeqNo) (payload : List Byte)
  /-- WIN_PLACE (R41). -/
  | winPlace (ch : Chan) (seq : SeqNo) (payload : List Byte)
  /-- WIN_SHOW (R42). -/
  | winShow (ch : Chan) (seq : SeqNo) (payload : List Byte)
  /-- PAL_STAGE (R43). -/
  | palStage (ch : Chan) (seq : SeqNo) (payload : List Byte)
  /-- FILL_STAGE (R44). -/
  | fillStage (ch : Chan) (seq : SeqNo) (payload : List Byte)
  /-- SET_COMMIT (R48). -/
  | setCommit (ch : Chan) (seq : SeqNo) (payload : List Byte)
  /-- SET_DISCARD (R60). -/
  | setDiscard (ch : Chan) (seq : SeqNo) (payload : List Byte)
  /-- SET_WITHDRAW (R61). -/
  | setWithdraw (ch : Chan) (seq : SeqNo) (payload : List Byte)
  /-- SEG_CREATE (R71). -/
  | segCreate (ch : Chan) (seq : SeqNo) (payload : List Byte)
  /-- SEG_WRITE (R76). -/
  | segWrite (ch : Chan) (seq : SeqNo) (payload : List Byte)
  /-- SEG_CLOSE (R79). -/
  | segClose (ch : Chan) (seq : SeqNo) (payload : List Byte)
  /-- SEG_DELETE (R83). -/
  | segDelete (ch : Chan) (seq : SeqNo) (payload : List Byte)
  /-- QUERY_STATUS (R181). -/
  | queryStatus (ch : Chan) (seq : SeqNo) (payload : List Byte)
  /-- QUERY_WINDOW (R22). -/
  | queryWindow (ch : Chan) (seq : SeqNo) (payload : List Byte)
  /-- QUERY_PALETTE (R33). -/
  | queryPalette (ch : Chan) (seq : SeqNo) (payload : List Byte)
  /-- QUERY_SEGMENT (R90). -/
  | querySegment (ch : Chan) (seq : SeqNo) (payload : List Byte)
  /-- QUERY_DIRECTORY (R91). -/
  | queryDirectory (ch : Chan) (seq : SeqNo) (payload : List Byte)
  /-- PARAM_SET (R185). -/
  | paramSet (ch : Chan) (seq : SeqNo) (payload : List Byte)
  /-- PARAM_QUERY (R173). -/
  | paramQuery (ch : Chan) (seq : SeqNo) (payload : List Byte)
  /-- PART_RESET (R187). -/
  | partReset (ch : Chan) (seq : SeqNo) (payload : List Byte)
  /-- RESYNC (R155). -/
  | resync (ch : Chan) (seq : SeqNo) (payload : List Byte)
  /-- SEG_WRITE_COMPLETION (R77). -/
  | segWriteCompletion
  /-- VERIFY_COMPLETION (R81). -/
  | verifyCompletion
  /-- PART_RESET_EFFECT (R188): the marked OK is emitted in a free line of `width` data words. -/
  | partResetEffect (width : Nat)
deriving DecidableEq, Repr

end Sys2Proof
end

