-- ==== Sys2Proof/Decode.lean ====
section
/-! DEFINITION. Decode.lean: the command a table word spells. No row of spec/opcode_table.json gives bits (the part's
commands are events and messages, not encoded words), so no word spells a command (log 21). -/

namespace Sys2Proof

/-- The command that the `nbits` bits of `w` spell: none, since the table gives no row a bit. -/
def decodeTableWord (_nbits _w : Nat) : Option Instr := none

end Sys2Proof
end

