-- ==== Sys2Proof/Config.lean ====
section
/-! DEFINITION. Config.lean: the fixed sizes the spec gives the part, its identity, and the free value: a constant
without a body for what the spec leaves open. -/

namespace Sys2Proof.Config

/-- Blocks of the bitmap memory (R66). -/
def blockCount : Nat := 4096

/-- Bytes of a block (R66). -/
def blockBytes : Nat := 512

/-- Entries of the response queue (R134). -/
def queueEntries : Nat := 16

/-- Edits the open set holds at most (R35). -/
def maxEdits : Nat := 32

/-- Staged bytes the open set holds at most (R35). -/
def maxStagedBytes : Nat := 8192

/-- Segment records the directory holds at most (R68). -/
def maxSegments : Nat := 64

/-- Bytes of window stride per output line at most (R4). -/
def maxLineLoad : Nat := 3072

/-- Bytes of one fragment's payload at most (R146). -/
def fragmentBytes : Nat := 1024

/-- Lines of a frame at most (R101). -/
def maxLines : Nat := 4200

/-- Vendor code of the identity (R178). -/
def vendorCode : Nat := 0x3A7

/-- Part code of the identity (R178). -/
def partCode : Nat := 420

/-- Revision of the identity (R178). -/
def revision : Nat := 1

/-- FREE VALUE (log 8). The "length required" of a BAD_LENGTH refusal where R165 states none: a PARAM_SET or
PARAM_QUERY that is not too short, or an announced length that does not fit the two bytes of the field. It depends on
the kind byte and the payload received. -/
opaque requiredLength : Byte → List Byte → BitVec 16

end Sys2Proof.Config
end

