-- ==== Sys2Proof/Machine/State.lean ====
section
/-! DEFINITION. Machine/State.lean: the state of the part as plain data, block by block (00_scope.md, Functional
Overview), the stop reasons, and the state after hard reset. -/

namespace Sys2Proof.Machine

/-! ### The Timing Unit (chapter 5) -/

/-- The Timing Unit's lock state (R104). -/
inductive LockState where
  | noSignal
  | acquiring
  | locked
  | holdover
  | rejoining
deriving DecidableEq, Repr

/-- The cause of a change of lock state (R120). -/
inductive LockCause where
  | input
  | matched
  | absence
  | fault
  | limit
deriving DecidableEq, Repr

/-- A line's type, as its type word gives it (R96). -/
inductive LineType where
  | frameHead
  | blank
  | active
  | unknown (typeWord : Lane)
deriving DecidableEq, Repr

/-- A frame's geometry (R100). -/
structure Geometry where
  width : Nat
  activeLines : Nat
  totalLines : Nat
deriving DecidableEq, Repr

/-- A geometry with the line pattern and the duration in REF_CLK periods of the frame it came from (R100, R104). -/
structure FrameShape where
  geometry : Geometry
  pattern : List LineType
  period : Nat
deriving DecidableEq, Repr

/-- The running generator (R104, R114): the shape of the frame it is producing, the position of the line it begins
next (0: its next line is a frame head), and whether it produced that frame's head itself (R113 has it complete a
frame of the input's). -/
structure Generator where
  shape : FrameShape
  next : Nat
  ownHead : Bool
deriving DecidableEq, Repr

/-- The Timing Unit's items (R104). -/
structure Timing where
  lock : LockState
  recorded : Option FrameShape
  candidate : Option FrameShape
  matchCount : Nat
  faultCount : Nat
  holdoverCount : Nat
  frame : Option FrameNo
  absence : Bool
  gen : Option Generator
deriving DecidableEq, Repr

/-- Hard reset and every entry to NO_SIGNAL (R104). -/
def Timing.reset : Timing :=
  { lock := .noSignal, recorded := none, candidate := none, matchCount := 0, faultCount := 0, holdoverCount := 0,
    frame := none, absence := false, gen := none }

/-! ### The link: the inbound frame in progress and the output -/

/-- The inbound frame in progress (R97, R100): `lines` are its complete lines, oldest first, each with its type and
width; `openType` is the type of the line that its last marker opened, at position `lines.length`. -/
structure InFrame where
  headless : Bool
  lines : List (LineType × Nat)
  openType : LineType
  decodable : Bool
  refClks : Nat
deriving DecidableEq, Repr

/-- Where an output line comes from (R8, R103). -/
inductive LineSource where
  | input
  | generator
deriving DecidableEq, Repr

/-- One output line: its marker's type, its data words, its source, and for a generated line of a generated frame the
REF_CLK periods from that frame's head to its beginning (R114). -/
structure OutLine where
  type : LineType
  data : List DataWord
  source : LineSource
  offset : Option Nat
deriving DecidableEq, Repr

/-- The output: silence, both lanes 0x000 at every word (R118), or the line last begun. -/
inductive VideoOut where
  | silent
  | line (l : OutLine)
deriving DecidableEq, Repr

/-- Transfers in progress at the Link Receiver and the Link Transmitter. `cut` says that the output line before ended
where it stood (R117, R118); `nextY` is the line coordinate of the next ACTIVE line of the output frame. -/
structure Link where
  inFrame : Option InFrame
  vout : VideoOut
  cut : Bool
  nextY : Nat
deriving DecidableEq, Repr

/-- Hard reset: the output is silent and the input is not examined (R123, R191). The model's own `cut` and `nextY` are no
and 0, by the model's choice, whatever line the reset silences (log 17). -/
def Link.reset : Link :=
  { inFrame := none, vout := .silent, cut := false, nextY := 0 }

/-! ### The Overlay Compositor (chapters 1 and 2) -/

/-- Bits per pixel of a window's bitmap (R1). -/
inductive Depth where
  | d1
  | d2
  | d4
  | d8
deriving DecidableEq, Repr

/-- A scale factor: x1, x2 or x4 (R1). -/
inductive Scale where
  | x1
  | x2
  | x4
deriving DecidableEq, Repr

/-- The latched lock states in which a window may be shown (R1, R19). -/
inductive ShowCond where
  | always
  | signal
  | noSignal
deriving DecidableEq, Repr

/-- A window record (R1). A key is a raw value; a remap is a list of palette indices. -/
structure WindowRec where
  enabled : Bool
  segment : Option Nat
  depth : Depth
  srcWidth : Nat
  srcHeight : Nat
  originX : Nat
  originY : Nat
  hScale : Scale
  vScale : Scale
  palette : Fin 4
  level : Fin 9
  priority : Fin 8
  blinkOn : Nat
  blinkOff : Nat
  cond : ShowCond
  key : Option Nat
  remap : Option (List Nat)
deriving DecidableEq, Repr

/-- Window record `i` after hard reset and after either PART_RESET (R20, R21). -/
def WindowRec.reset (i : Fin 8) : WindowRec :=
  { enabled := false, segment := none, depth := .d8, srcWidth := 1, srcHeight := 1, originX := 0, originY := 0,
    hScale := .x1, vScale := .x1, palette := 0, level := 0, priority := i, blinkOn := 0, blinkOff := 0,
    cond := .always, key := none, remap := none }

/-- One window of the compositor: its active record (R1), its blink phase (R18), and the shown decision for the frame
in progress (R19). -/
structure WinSlot where
  win : WindowRec
  phase : Nat
  shown : Bool
deriving DecidableEq, Repr

/-- A palette entry (R24). -/
structure PalEntry where
  y : Lane
  cb : Lane
  cr : Lane
  opacity : Fin 17
deriving DecidableEq, Repr

/-- A colour without opacity: the fill colour's fields (R30). -/
structure Colour where
  y : Lane
  cb : Lane
  cr : Lane
deriving DecidableEq, Repr

/-- The Overlay Compositor: eight windows by index, four palettes of 256 entries, the fill colour, and the lock state
latched at the last output frame head (chapter 1; R24, R30, R16). -/
structure Compositor where
  slots : List WinSlot
  palettes : List (List PalEntry)
  fill : Colour
  latch : LockState
deriving DecidableEq, Repr

/-- Every palette entry after a reset (R32). -/
def PalEntry.reset : PalEntry := { y := 64, cb := 512, cr := 512, opacity := 0 }

/-- The fill colour after a reset (R32). -/
def Colour.reset : Colour := { y := 64, cb := 512, cr := 512 }

/-- The eight windows after a reset: reset records, phase 0, not shown (R20, R21). -/
def WinSlot.resetAll : List WinSlot :=
  [0, 1, 2, 3, 4, 5, 6, 7].map fun i : Fin 8 => { win := WindowRec.reset i, phase := 0, shown := false }

/-- The four palettes after a reset (R32). -/
def PalEntry.resetAll : List (List PalEntry) :=
  List.replicate 4 (List.replicate 256 PalEntry.reset)

/-- Hard reset (R20, R32, R16). -/
def Compositor.reset : Compositor :=
  { slots := WinSlot.resetAll, palettes := PalEntry.resetAll, fill := Colour.reset, latch := .noSignal }

/-! ### The Change-Set Unit (chapter 3) -/

/-- One staged change (R36, R39 to R44). -/
inductive Edit where
  | winStage (index : Nat) (win : WindowRec)
  | winPlace (index : Nat) (originX originY : Nat)
  | winShow (index : Nat) (enabled : Bool)
  | palStage (palette : Nat) (first : Nat) (entries : List PalEntry)
  | fillStage (colour : Colour)
deriving DecidableEq, Repr

/-- The target of a scheduled set (R35). -/
inductive Target where
  | next
  | atFrame (n : FrameNo)
deriving DecidableEq, Repr

/-- A scheduled set (R35). -/
structure Scheduled where
  edits : List Edit
  target : Target
deriving DecidableEq, Repr

/-- The Change-Set Unit (R35). -/
structure ChangeSet where
  openSet : List Edit
  scheduled : Option Scheduled
  lastApp : Option FrameNo
deriving DecidableEq, Repr

/-- Hard reset (R63). -/
def ChangeSet.reset : ChangeSet := { openSet := [], scheduled := none, lastApp := none }

/-! ### The Bitmap Store (chapter 4) -/

/-- The bitmap memory: cells (address, byte) with addresses strictly rising and no byte 0; an address is
512 x block + byte in block, and an unlisted address reads as 0 (log 10). -/
abbrev Memory := List Host.Cell

/-- A segment's place in its lifecycle (R68). -/
inductive SegState where
  | loading
  | verifying
  | ready
  | retiring
deriving DecidableEq, Repr

/-- A segment record (R68). -/
structure Segment where
  id : Nat
  state : SegState
  length : Nat
  blocks : List Nat
  active : Nat
  staged : Nat
  queued : Nat
  check : Option (BitVec 32)
deriving DecidableEq, Repr

/-- An operation of the store access queue (R73). -/
inductive StoreOp where
  | write (id : Nat) (ch : Chan) (offset : Nat) (data : List Byte)
  | verify (id : Nat) (ch : Chan) (check : BitVec 32)
deriving DecidableEq, Repr

/-- The Bitmap Store: memory, free-block list, segment directory in ascending order of id, store access queue. -/
structure Store where
  mem : Memory
  freeList : List Nat
  dir : List Segment
  queue : List StoreOp
deriving DecidableEq, Repr

/-- Hard reset (R92). -/
def Store.reset : Store :=
  { mem := [], freeList := List.range Config.blockCount, dir := [], queue := [] }

/-! ### The Packet Unit (chapter 6) -/

/-- A management range: a first line and a count (R99, R124). -/
structure MgmtRange where
  first : Nat
  count : Nat
deriving DecidableEq, Repr

/-- A filled entry of the response queue (R134): the packet, the Status Unit's mark of a reset's response (R187), and
the fill time (log 15). -/
structure Entry where
  packet : List Byte
  marked : Bool
  fillTime : Nat
deriving DecidableEq, Repr

/-- The Packet Unit (R124): the two ranges, the filled entries oldest first, the channels that hold a reservation, and
the model's counter of fills (log 15). -/
structure PacketUnit where
  inRange : MgmtRange
  outRange : MgmtRange
  filled : List Entry
  reserved : List Chan
  fillClock : Nat
deriving DecidableEq, Repr

/-- Hard reset (R138). -/
def PacketUnit.reset : PacketUnit :=
  { inRange := { first := 1, count := 4 }, outRange := { first := 1, count := 4 }, filled := [], reserved := [],
    fillClock := 0 }

/-! ### The Channel Unit (chapter 7) -/

/-- Where a channel stands (R140). -/
inductive ChanState where
  | idle
  | assembling
  | executing
  | halted
deriving DecidableEq, Repr

/-- A message being joined (R140). -/
structure Assembly where
  seq : SeqNo
  kind : Byte
  frags : List (List Byte)
  heads : Nat
deriving DecidableEq, Repr

/-- A channel record (R140). -/
structure ChanRec where
  state : ChanState
  last : SeqNo
  assembly : Option Assembly
  cache : Option (List Byte)
deriving DecidableEq, Repr

/-- A channel record after hard reset and after FULL reset (R160, R161). -/
def ChanRec.reset : ChanRec := { state := .idle, last := 15, assembly := none, cache := none }

/-- The four channel records (R140). -/
structure ChannelUnit where
  c0 : ChanRec
  c1 : ChanRec
  c2 : ChanRec
  c3 : ChanRec
deriving DecidableEq, Repr

/-- Hard reset and FULL reset (R160, R161). -/
def ChannelUnit.reset : ChannelUnit :=
  { c0 := ChanRec.reset, c1 := ChanRec.reset, c2 := ChanRec.reset, c3 := ChanRec.reset }

/-! ### The Status Unit (chapter 9) -/

/-- The six device parameters (R185). -/
structure Params where
  mgmtFirstLine : Nat
  mgmtLineCount : Nat
  assemblyTimeout : Nat
  holdoverLimit : Nat
  lossInterval : Nat
  noticeMask : Nat
deriving DecidableEq, Repr

/-- The defaults (R185). -/
def Params.default : Params :=
  { mgmtFirstLine := 1, mgmtLineCount := 4, assemblyTimeout := 8, holdoverLimit := 65535, lossInterval := 4,
    noticeMask := 63 }

/-- The eight event flags (R179). -/
structure Flags where
  lockChange : Bool
  geometryFault : Bool
  lateApply : Bool
  assemblyTimeout : Bool
  responseDropped : Bool
  noticeDropped : Bool
  packetCrc : Bool
  segmentReleased : Bool
deriving DecidableEq, Repr

/-- All flags clear (R178). -/
def Flags.clear : Flags :=
  { lockChange := false, geometryFault := false, lateApply := false, assemblyTimeout := false,
    responseDropped := false, noticeDropped := false, packetCrc := false, segmentReleased := false }

/-- The scope of a PART_RESET (R175). -/
inductive ResetScope where
  | overlay
  | full
deriving DecidableEq, Repr

/-- The event at which a PART_RESET took effect (R188). -/
inductive ResetPath where
  | emission
  | noSignal
deriving DecidableEq, Repr

/-- The record of the last reset (R178). -/
inductive LastReset where
  | hard
  | soft (scope : ResetScope) (path : ResetPath)
deriving DecidableEq, Repr

/-- The Status Unit (R178). `resetting` is RESETTING with the scope taken; none is RESETTING no. The identity is
constant (Config). -/
structure StatusUnit where
  params : Params
  flags : Flags
  address : BitVec 5
  resetting : Option ResetScope
  lastReset : LastReset
deriving DecidableEq, Repr

/-- Hard reset, with the address sampled from the straps (R178, R191). -/
def StatusUnit.reset (strap : BitVec 5) : StatusUnit :=
  { params := Params.default, flags := Flags.clear, address := strap, resetting := none, lastReset := .hard }

/-! ### The whole part -/

/-- The state of the part. `headOpen` says that an output frame head has been produced and its application and
assembly timeouts are still to be made (log 2); `pending` are the commands waiting, first in first out. -/
structure State where
  timing : Timing
  link : Link
  comp : Compositor
  cset : ChangeSet
  store : Store
  pkt : PacketUnit
  chn : ChannelUnit
  status : StatusUnit
  headOpen : Bool
  pending : List Instr
deriving DecidableEq, Repr

/-- Reasons for which a command stops the machine: there are none. Every row of the table has an effect, or names an
event that does not occur in the state at hand, and then changes nothing (log 4; safe). -/
inductive Fault where
deriving DecidableEq, Repr

/-- Reasons for which the model gives a command no meaning. -/
inductive Refusal where
  /-- Raised by an arm of exec whose row has no meaning yet; no arm raises it now. Safe: a claim about such a command
  cannot be proved. -/
  | notModelled (mnemonic : String)
deriving DecidableEq, Repr

/-- The part after a hard reset whose straps read `strap` (R191 and the reset rule of each chapter). -/
def State.afterHardReset (strap : BitVec 5) : State :=
  { timing := Timing.reset, link := Link.reset, comp := Compositor.reset, cset := ChangeSet.reset,
    store := Store.reset, pkt := PacketUnit.reset, chn := ChannelUnit.reset, status := StatusUnit.reset strap,
    headOpen := false, pending := [] }

/-- The part right after reset, straps read as 0 (log 9). -/
def State.reset : State := State.afterHardReset 0

end Sys2Proof.Machine
end

