-- ==== Sys2Proof/Machine/Operands.lean ====
section
/-! DEFINITION. Machine/Operands.lean: fields of a payload and their codes (chapter 11), message kinds and their
channels and lengths (R164, R165), result codes (R176), and the value checks of each kind (R166). -/

namespace Sys2Proof.Machine

/-! ### Bytes: most significant byte first (R195) -/

/-- A number as one byte. -/
def byte (n : Nat) : Byte := BitVec.ofNat 8 n

/-- A number as a field of two bytes. -/
def be2 (n : Nat) : List Byte := [byte (n / 256), byte n]

/-- A number as a field of four bytes. -/
def be4 (n : Nat) : List Byte := be2 (n / 65536) ++ be2 n

/-- A yes / no field (R195). -/
def boolByte (b : Bool) : Byte := if b then 1 else 0

/-- The one-byte field at position `i`. -/
def u1 (p : List Byte) (i : Nat) : Nat := ((p[i]?).getD 0).toNat

/-- The two-byte field at position `i`. -/
def u2 (p : List Byte) (i : Nat) : Nat := u1 p i * 256 + u1 p (i + 1)

/-- The four-byte field at position `i`. -/
def u4 (p : List Byte) (i : Nat) : Nat := u2 p i * 65536 + u2 p (i + 2)

/-- An optional two-byte item with its presence byte (R195). -/
def presentBe2 (o : Option FrameNo) : List Byte :=
  match o with
  | some f => 1 :: be2 f.toNat
  | none => [0, 0, 0]

/-! ### Codes of the fields (section 11.2) -/

/-- Lock state codes. -/
def LockState.code : LockState → Nat
  | .noSignal => 0
  | .acquiring => 1
  | .locked => 2
  | .holdover => 3
  | .rejoining => 4

/-- LOCK_STATE cause codes. -/
def LockCause.code : LockCause → Nat
  | .input => 0
  | .matched => 1
  | .absence => 2
  | .fault => 3
  | .limit => 4

/-- Channel state codes. -/
def ChanState.code : ChanState → Nat
  | .idle => 0
  | .assembling => 1
  | .executing => 2
  | .halted => 3

/-- Segment state codes. -/
def SegState.code : SegState → Nat
  | .loading => 0
  | .verifying => 1
  | .ready => 2
  | .retiring => 3

/-- Depth in bits per pixel: also its code. -/
def Depth.bits : Depth → Nat
  | .d1 => 1
  | .d2 => 2
  | .d4 => 4
  | .d8 => 8

/-- The depth a code names. -/
def Depth.ofNat? : Nat → Option Depth
  | 1 => some .d1
  | 2 => some .d2
  | 4 => some .d4
  | 8 => some .d8
  | _ => none

/-- Remap entries of a depth: 2^depth for depths 1, 2 and 4, none for depth 8 (R1, R39). -/
def Depth.remapCount (d : Depth) : Nat := if d.bits ≤ 4 then 2 ^ d.bits else 0

/-- Scale factor: also its code. -/
def Scale.factor : Scale → Nat
  | .x1 => 1
  | .x2 => 2
  | .x4 => 4

/-- The scale a code names. -/
def Scale.ofNat? : Nat → Option Scale
  | 1 => some .x1
  | 2 => some .x2
  | 4 => some .x4
  | _ => none

/-- Show condition codes. -/
def ShowCond.code : ShowCond → Nat
  | .always => 0
  | .signal => 1
  | .noSignal => 2

/-- The show condition a code names. -/
def ShowCond.ofNat? : Nat → Option ShowCond
  | 0 => some .always
  | 1 => some .signal
  | 2 => some .noSignal
  | _ => none

/-- PART_RESET scope codes: also the codes of the last reset's scope. -/
def ResetScope.code : ResetScope → Nat
  | .overlay => 1
  | .full => 2

/-- The scope a code names. -/
def ResetScope.ofNat? : Nat → Option ResetScope
  | 1 => some .overlay
  | 2 => some .full
  | _ => none

/-- The last reset's scope code. -/
def LastReset.scopeCode : LastReset → Nat
  | .hard => 0
  | .soft scope _ => scope.code

/-- The last reset's path code. -/
def LastReset.pathCode : LastReset → Nat
  | .hard => 0
  | .soft _ .emission => 1
  | .soft _ .noSignal => 2

/-- A target's kind and frame number as three bytes; the number is 0 for NEXT (R195). -/
def Target.bytes : Target → List Byte
  | .next => [0, 0, 0]
  | .atFrame n => 1 :: be2 n.toNat

/-! ### Result codes (section 11.5) -/

/-- The thirty result codes (R176). -/
inductive Code where
  | ok | badLength | badKind | wrongChannel | badValue | busy | halted | sequence | fragmentGap | fragmentSize
  | resetting | setFull | setEmpty | pending | noneScheduled | lineLoad | late | far | priorityClash | segmentShort
  | noSegment | notReady | retiring | exists_ | directoryFull | noSpace | inUse | writeRange | closed | checkMismatch
deriving DecidableEq, Repr

/-- The numeric result code. -/
def Code.num : Code → Nat
  | .ok => 0
  | .badLength => 1
  | .badKind => 2
  | .wrongChannel => 3
  | .badValue => 4
  | .busy => 5
  | .halted => 6
  | .sequence => 7
  | .fragmentGap => 8
  | .fragmentSize => 10
  | .resetting => 11
  | .setFull => 12
  | .setEmpty => 13
  | .pending => 14
  | .noneScheduled => 15
  | .lineLoad => 16
  | .late => 17
  | .far => 18
  | .priorityClash => 19
  | .segmentShort => 20
  | .noSegment => 21
  | .notReady => 22
  | .retiring => 23
  | .exists_ => 24
  | .directoryFull => 25
  | .noSpace => 26
  | .inUse => 27
  | .writeRange => 28
  | .closed => 29
  | .checkMismatch => 30

/-! ### Message kinds (R164, section 11.4) -/

/-- The twenty-one command kinds. -/
inductive Kind where
  | winStage | winPlace | winShow | palStage | fillStage | setCommit | setDiscard | setWithdraw
  | segCreate | segWrite | segClose | segDelete
  | queryStatus | queryWindow | queryPalette | querySegment | queryDirectory
  | paramSet | paramQuery | partReset | resync
deriving DecidableEq, Repr

/-- The kind byte. -/
def Kind.code : Kind → Byte
  | .winStage => 0x01
  | .winPlace => 0x02
  | .winShow => 0x03
  | .palStage => 0x04
  | .fillStage => 0x05
  | .setCommit => 0x08
  | .setDiscard => 0x09
  | .setWithdraw => 0x0A
  | .segCreate => 0x10
  | .segWrite => 0x11
  | .segClose => 0x12
  | .segDelete => 0x13
  | .queryStatus => 0x18
  | .queryWindow => 0x19
  | .queryPalette => 0x1A
  | .querySegment => 0x1B
  | .queryDirectory => 0x1C
  | .paramSet => 0x20
  | .paramQuery => 0x21
  | .partReset => 0x22
  | .resync => 0x30

/-- Every command kind. -/
def Kind.all : List Kind :=
  [.winStage, .winPlace, .winShow, .palStage, .fillStage, .setCommit, .setDiscard, .setWithdraw,
   .segCreate, .segWrite, .segClose, .segDelete,
   .queryStatus, .queryWindow, .queryPalette, .querySegment, .queryDirectory,
   .paramSet, .paramQuery, .partReset, .resync]

/-- The command kind a kind byte names; NOTICE and unassigned codes name none (R164). -/
def Kind.ofCode? (b : Byte) : Option Kind := Kind.all.find? fun k => k.code == b

/-- The kind byte of a notice (section 11.4). -/
def noticeKind : Byte := 0x40

/-- The bulk kinds travel on channels 1 to 3, RESYNC on all, every other kind on channel 0 (R141, R164). -/
def Kind.onChannel (k : Kind) (ch : Chan) : Bool :=
  match k with
  | .segWrite | .segClose => ch != 0
  | .resync => true
  | _ => ch == 0

/-- The channels a kind requires, as the sum of the weights 1, 2, 4 and 8 (section 11.10, WRONG_CHANNEL). -/
def Kind.channelWeights : Kind → Nat
  | .segWrite | .segClose => 14
  | .resync => 15
  | _ => 1

/-- The payload length is one the kind allows (R165). -/
def Kind.lengthAllowed (k : Kind) (p : List Byte) : Bool :=
  match k with
  | .winStage => 24 ≤ p.length && p.length == 24 + u2 p 22
  | .winPlace => p.length == 6
  | .winShow => p.length == 2
  | .palStage => 4 ≤ p.length && p.length == 4 + 8 * u2 p 2
  | .fillStage => p.length == 6
  | .setCommit => p.length == 3
  | .setDiscard => p.length == 0
  | .setWithdraw => p.length == 0
  | .segCreate => p.length == 8
  | .segWrite => 9 ≤ p.length && p.length ≤ 8192
  | .segClose => p.length == 8
  | .segDelete => p.length == 4
  | .queryStatus => p.length == 1
  | .queryWindow => p.length == 1
  | .queryPalette => p.length == 5
  | .querySegment => p.length == 4
  | .queryDirectory => p.length == 0
  | .paramSet => p.length % 3 == 0 && 1 ≤ p.length / 3 && p.length / 3 ≤ 16
  | .paramQuery => 1 ≤ p.length && p.length ≤ 16
  | .partReset => p.length == 1
  | .resync => p.length == 0

/-- A required length as two bytes; one that does not fit them is a free value (log 8). -/
def Kind.fitted (k : Kind) (p : List Byte) (n : Nat) : BitVec 16 :=
  if n < 65536 then BitVec.ofNat 16 n else Config.requiredLength k.code p

/-- The length a BAD_LENGTH refusal says the kind requires (R165): the announced one, or the kind's minimum where the
payload is too short. PARAM_SET and PARAM_QUERY announce none: a free value unless too short (log 8). -/
def Kind.requiredLength (k : Kind) (p : List Byte) : BitVec 16 :=
  match k with
  | .winStage => if p.length < 24 then 24 else k.fitted p (24 + u2 p 22)
  | .winPlace => 6
  | .winShow => 2
  | .palStage => if p.length < 4 then 4 else k.fitted p (4 + 8 * u2 p 2)
  | .fillStage => 6
  | .setCommit => 3
  | .setDiscard => 0
  | .setWithdraw => 0
  | .segCreate => 8
  | .segWrite => 9
  | .segClose => 8
  | .segDelete => 4
  | .queryStatus => 1
  | .queryWindow => 1
  | .queryPalette => 5
  | .querySegment => 4
  | .queryDirectory => 0
  | .paramSet => if p.length < 3 then 3 else Config.requiredLength k.code p
  | .paramQuery => if p.length < 1 then 1 else Config.requiredLength k.code p
  | .partReset => 1
  | .resync => 0

/-! ### Value checks (R166): the fields in payload order, each with its position and whether it passes -/

/-- The position of the first field that fails. -/
def firstBad (checks : List (Nat × Bool)) : Option Nat :=
  (checks.find? fun c => !c.2).map (·.1)

/-- WIN_STAGE (R39; a condition on two fields is charged to the later, R166). -/
def winStageChecks (p : List Byte) : List (Nat × Bool) :=
  let depth := (Depth.ofNat? (u1 p 3)).getD .d8
  [(0, u1 p 0 < 8), (1, u1 p 1 < 2), (3, (Depth.ofNat? (u1 p 3)).isSome),
   (4, 1 ≤ u2 p 4 && u2 p 4 ≤ 4096), (6, 1 ≤ u2 p 6 && u2 p 6 ≤ 4096), (8, u2 p 8 ≤ 4095), (10, u2 p 10 ≤ 4095),
   (12, (Scale.ofNat? (u1 p 12)).isSome), (13, (Scale.ofNat? (u1 p 13)).isSome), (14, u1 p 14 < 4),
   (15, u1 p 15 ≤ 8), (16, u1 p 16 ≤ 7), (19, (ShowCond.ofNat? (u1 p 19)).isSome), (20, u1 p 20 < 2),
   (21, u1 p 20 == 0 || u1 p 21 < 2 ^ depth.bits), (22, u2 p 22 == depth.remapCount)]

/-- A segment field: 0 for none (R39). -/
def segField (n : Nat) : Option Nat := if n = 0 then none else some n

/-- The window record a WIN_STAGE carries (section 11.6). A key marked absent is not kept (R39). -/
def windowOf (p : List Byte) : WindowRec :=
  let depth := (Depth.ofNat? (u1 p 3)).getD .d8
  { enabled := u1 p 1 == 1
    segment := segField (u1 p 2)
    depth := depth
    srcWidth := u2 p 4
    srcHeight := u2 p 6
    originX := u2 p 8
    originY := u2 p 10
    hScale := (Scale.ofNat? (u1 p 12)).getD .x1
    vScale := (Scale.ofNat? (u1 p 13)).getD .x1
    palette := Fin.ofNat 4 (u1 p 14)
    level := Fin.ofNat 9 (u1 p 15)
    priority := Fin.ofNat 8 (u1 p 16)
    blinkOn := u1 p 17
    blinkOff := u1 p 18
    cond := (ShowCond.ofNat? (u1 p 19)).getD .always
    key := if u1 p 20 = 1 then some (u1 p 21) else none
    remap := if depth.remapCount = 0 then none else some ((p.drop 24).map BitVec.toNat) }

/-- The window record's layout, for the QUERY_WINDOW response (section 11.6). -/
def windowBytes (i : Nat) (w : WindowRec) : List Byte :=
  [byte i, boolByte w.enabled, byte (w.segment.getD 0), byte w.depth.bits] ++ be2 w.srcWidth ++ be2 w.srcHeight
    ++ be2 w.originX ++ be2 w.originY
    ++ [byte w.hScale.factor, byte w.vScale.factor, byte w.palette.val, byte w.level.val, byte w.priority.val,
        byte w.blinkOn, byte w.blinkOff, byte w.cond.code, boolByte w.key.isSome, byte (w.key.getD 0)]
    ++ be2 (w.remap.getD []).length ++ (w.remap.getD []).map byte

/-- WIN_PLACE (R41); the byte after the index must be 0 (section 11.2). -/
def winPlaceChecks (p : List Byte) : List (Nat × Bool) :=
  [(0, u1 p 0 < 8), (1, u1 p 1 == 0), (2, u2 p 2 ≤ 4095), (4, u2 p 4 ≤ 4095)]

/-- WIN_SHOW (R42). -/
def winShowChecks (p : List Byte) : List (Nat × Bool) :=
  [(0, u1 p 0 < 8), (1, u1 p 1 < 2)]

/-- The checks of the palette entry at position `i` (R43). -/
def palEntryChecks (p : List Byte) (i : Nat) : List (Nat × Bool) :=
  [(i, u2 p i ≤ 1023), (i + 2, u2 p (i + 2) ≤ 1023), (i + 4, u2 p (i + 4) ≤ 1023), (i + 6, u2 p (i + 6) ≤ 16)]

/-- PAL_STAGE (R43); first index + count is charged to the count (R166). -/
def palStageChecks (p : List Byte) : List (Nat × Bool) :=
  (0, u1 p 0 < 4) :: (2, 1 ≤ u2 p 2 && u2 p 2 ≤ 256 && u1 p 1 + u2 p 2 ≤ 256)
    :: (List.range (u2 p 2)).flatMap fun k => palEntryChecks p (4 + 8 * k)

/-- The palette entry at position `i` (section 11.7). -/
def palEntryOf (p : List Byte) (i : Nat) : PalEntry :=
  { y := BitVec.ofNat 10 (u2 p i), cb := BitVec.ofNat 10 (u2 p (i + 2)), cr := BitVec.ofNat 10 (u2 p (i + 4)),
    opacity := Fin.ofNat 17 (u2 p (i + 6)) }

/-- The layout of a palette entry (section 11.7). -/
def palEntryBytes (e : PalEntry) : List Byte :=
  be2 e.y.toNat ++ be2 e.cb.toNat ++ be2 e.cr.toNat ++ be2 e.opacity.val

/-- The fill colour's six bytes (section 11.7). -/
def colourBytes (c : Colour) : List Byte := be2 c.y.toNat ++ be2 c.cb.toNat ++ be2 c.cr.toNat

/-- FILL_STAGE (R44). -/
def fillStageChecks (p : List Byte) : List (Nat × Bool) :=
  [(0, u2 p 0 ≤ 1023), (2, u2 p 2 ≤ 1023), (4, u2 p 4 ≤ 1023)]

/-- The colour a FILL_STAGE carries (section 11.7). -/
def colourOf (p : List Byte) : Colour :=
  { y := BitVec.ofNat 10 (u2 p 0), cb := BitVec.ofNat 10 (u2 p 2), cr := BitVec.ofNat 10 (u2 p 4) }

/-- SET_COMMIT (R168). -/
def setCommitChecks (p : List Byte) : List (Nat × Bool) := [(0, u1 p 0 < 2)]

/-- The target a SET_COMMIT carries; a NEXT commit's number is not kept (R48). -/
def targetOf (p : List Byte) : Target :=
  if u1 p 0 = 1 then .atFrame (BitVec.ofNat 16 (u2 p 1)) else .next

/-- SEG_CREATE (R71 step 1). -/
def segCreateChecks (p : List Byte) : List (Nat × Bool) :=
  [(0, 1 ≤ u4 p 0 && u4 p 0 ≤ 255), (4, 1 ≤ u4 p 4 && u4 p 4 ≤ 2097152)]

/-- QUERY_STATUS (R171). -/
def queryStatusChecks (p : List Byte) : List (Nat × Bool) := [(0, u1 p 0 < 2)]

/-- QUERY_WINDOW (R22). -/
def queryWindowChecks (p : List Byte) : List (Nat × Bool) := [(0, u1 p 0 < 8)]

/-- QUERY_PALETTE (R33): palette (1), first index (2), count (2). -/
def queryPaletteChecks (p : List Byte) : List (Nat × Bool) :=
  [(0, u1 p 0 < 4), (1, u2 p 1 < 256), (3, 1 ≤ u2 p 3 && u2 p 3 ≤ 120 && u2 p 1 + u2 p 3 ≤ 256)]

/-- PART_RESET (R175). -/
def partResetChecks (p : List Byte) : List (Nat × Bool) := [(0, (ResetScope.ofNat? (u1 p 0)).isSome)]

/-- The range of each parameter (R185); an identifier that names none has no range (R172). -/
def paramRange : Nat → Option (Nat × Nat)
  | 1 => some (1, 63)
  | 2 => some (1, 16)
  | 3 => some (1, 255)
  | 4 => some (0, 65535)
  | 5 => some (2, 64)
  | 6 => some (0, 63)
  | _ => none

/-- A value lies in its parameter's range. -/
def paramFits (ident value : Nat) : Bool :=
  match paramRange ident with
  | some (lo, hi) => lo ≤ value && value ≤ hi
  | none => false

/-- PARAM_SET (R174, R185): each pair's identifier, then its value. -/
def paramSetChecks (p : List Byte) : List (Nat × Bool) :=
  (List.range (p.length / 3)).flatMap fun k =>
    [(3 * k, (paramRange (u1 p (3 * k))).isSome), (3 * k + 1, paramFits (u1 p (3 * k)) (u2 p (3 * k + 1)))]

/-- PARAM_QUERY (R173). -/
def paramQueryChecks (p : List Byte) : List (Nat × Bool) :=
  (List.range p.length).map fun i => (i, (paramRange (u1 p i)).isSome)

/-- One parameter's value. -/
def Params.get (q : Params) : Nat → Nat
  | 1 => q.mgmtFirstLine
  | 2 => q.mgmtLineCount
  | 3 => q.assemblyTimeout
  | 4 => q.holdoverLimit
  | 5 => q.lossInterval
  | 6 => q.noticeMask
  | _ => 0

/-- One parameter written. -/
def Params.set (q : Params) (ident value : Nat) : Params :=
  match ident with
  | 1 => { q with mgmtFirstLine := value }
  | 2 => { q with mgmtLineCount := value }
  | 3 => { q with assemblyTimeout := value }
  | 4 => { q with holdoverLimit := value }
  | 5 => { q with lossInterval := value }
  | 6 => { q with noticeMask := value }
  | _ => q

/-- The pairs of a PARAM_SET, in payload order. -/
def paramPairs (p : List Byte) : List (Nat × Nat) :=
  (List.range (p.length / 3)).map fun k => (u1 p (3 * k), u2 p (3 * k + 1))

end Sys2Proof.Machine
end

