-- ==== Sys2Proof/Machine/Ops.lean ====
section
/-! DEFINITION. Machine/Ops.lean: the operations blocks share: check values, packets, channel records, the response
queue, the bitmap memory and the segment directory. -/

namespace Sys2Proof.Machine

/-! ### Check values: CRC-16 (R126) and CRC-32 (R80) -/

/-- One bit of a check value computed most significant bit first. -/
def crcBit {w : Nat} (poly c : BitVec w) : BitVec w := if c.msb then (c <<< 1) ^^^ poly else c <<< 1

/-- `n` bits. -/
def crcBits {w : Nat} (poly : BitVec w) : Nat → BitVec w → BitVec w
  | 0, c => c
  | n + 1, c => crcBits poly n (crcBit poly c)

/-- One byte, entering most significant bit first. -/
def crcByte {w : Nat} (poly c : BitVec w) (b : Byte) : BitVec w :=
  crcBits poly 8 (c ^^^ (b.setWidth w <<< (w - 8)))

/-- CRC-16: polynomial 0x1021, initial value 0xFFFF, not reflected, no final XOR (R126). -/
def crc16 (bs : List Byte) : BitVec 16 := bs.foldl (crcByte 0x1021) 0xFFFF

/-- CRC-32: polynomial 0x04C11DB7, initial value 0xFFFFFFFF, input bytes and output reflected, final XOR (R80). -/
def crc32 (bs : List Byte) : BitVec 32 :=
  (bs.foldl (fun c b => crcByte 0x04C11DB7 c b.reverse) 0xFFFFFFFF).reverse ^^^ 0xFFFFFFFF

/-! ### Packets the part forms (R137) -/

/-- The packet without its CRC: header and payload (section 11.3). The bits that the header table marks ignored, 3-2 of
byte 3 and 7-4 of byte 4, are sent as 0, which no rule states (log 27). -/
def packetBody (address : BitVec 5) (ch : Chan) (seq : SeqNo) (kind : Byte) (code : Code) (frame : Nat)
    (payload : List Byte) : List Byte :=
  [0xC3, 0x11, address.setWidth 8, byte (0x80 + ch.val), seq.setWidth 8, kind] ++ be2 payload.length ++ be2 code.num
    ++ be2 frame ++ payload

/-- A whole packet: header, payload, CRC-16 high byte first. -/
def packetOf (address : BitVec 5) (ch : Chan) (seq : SeqNo) (kind : Byte) (code : Code) (frame : Nat)
    (payload : List Byte) : List Byte :=
  let body := packetBody address ch seq kind code frame payload
  body ++ be2 (crc16 body).toNat

/-- The packet this part forms now: its address, and the current frame number or 0 (R137). -/
def State.packet (s : State) (ch : Chan) (seq : SeqNo) (kind : Byte) (code : Code) (payload : List Byte) : List Byte :=
  packetOf s.status.address ch seq kind code ((s.timing.frame.map BitVec.toNat).getD 0) payload

/-! ### Channel records (R140) -/

/-- The record of a channel. -/
def ChannelUnit.get (c : ChannelUnit) (ch : Chan) : ChanRec :=
  match ch with
  | 0 => c.c0
  | 1 => c.c1
  | 2 => c.c2
  | 3 => c.c3

/-- A channel's record replaced. -/
def ChannelUnit.set (c : ChannelUnit) (ch : Chan) (r : ChanRec) : ChannelUnit :=
  match ch with
  | 0 => { c with c0 := r }
  | 1 => { c with c1 := r }
  | 2 => { c with c2 := r }
  | 3 => { c with c3 := r }

/-- Every record changed alike. -/
def ChannelUnit.map (c : ChannelUnit) (f : ChanRec → ChanRec) : ChannelUnit :=
  { c0 := f c.c0, c1 := f c.c1, c2 := f c.c2, c3 := f c.c3 }

/-- The record of a channel. -/
def State.chan (s : State) (ch : Chan) : ChanRec := s.chn.get ch

/-- A channel's record replaced. -/
def State.setChan (s : State) (ch : Chan) (r : ChanRec) : State := { s with chn := s.chn.set ch r }

/-! ### The response queue (R134 to R136) -/

/-- Filled plus reserved. -/
def PacketUnit.total (q : PacketUnit) : Nat := q.filled.length + q.reserved.length

/-- There is room for one more entry. -/
def PacketUnit.room (q : PacketUnit) : Bool := q.total < Config.queueEntries

/-- A packet joins the tail of the fill order. -/
def PacketUnit.fill (q : PacketUnit) (packet : List Byte) (marked : Bool) : PacketUnit :=
  { q with filled := q.filled ++ [{ packet := packet, marked := marked, fillTime := q.fillClock }],
           fillClock := q.fillClock + 1 }

/-- A reservation for a channel is granted (R135). Reservations stand in no order (R134). -/
def State.reserve (s : State) (ch : Chan) : State :=
  { s with pkt := { s.pkt with reserved := ch :: s.pkt.reserved } }

/-- An unreserved packet is offered; with the queue at 16 it is not kept (R136). -/
def State.offer (s : State) (packet : List Byte) : State :=
  if s.pkt.room then { s with pkt := s.pkt.fill packet false } else s

/-- A channel's reservation is filled: the reserved entry becomes a filled one at the tail (R135). -/
def State.fillReserved (s : State) (ch : Chan) (packet : List Byte) (marked : Bool) : State :=
  { s with pkt := ({ s.pkt with reserved := s.pkt.reserved.erase ch }).fill packet marked }

/-- A message's reservation is filled with its result, which becomes the channel's cached response (R151, R152). -/
def State.answerWith (s : State) (ch : Chan) (seq : SeqNo) (kind : Byte) (code : Code) (payload : List Byte)
    (marked : Bool) : State :=
  let packet := s.packet ch seq kind code payload
  (s.fillReserved ch packet marked).setChan ch { s.chan ch with cache := some packet }

/-- What an owner says of an accepted message (R151, R152, R187). -/
inductive Reply where
  /-- The reservation is filled at once with this result. -/
  | answer (code : Code) (payload : List Byte)
  /-- A store operation was queued: the reservation stands until it completes. -/
  | queued
  /-- PART_RESET taken: an OK that the Status Unit marks. -/
  | marked (payload : List Byte)
deriving DecidableEq, Repr

/-- A BAD_VALUE refusal with the position of the failing field (R166). -/
def badValue (position : Nat) : Reply := .answer .badValue (be2 position)

/-! ### The bitmap memory (R66, R69) -/

/-- The byte at an address; an unlisted address reads as 0. -/
def Memory.read (m : Memory) (a : Nat) : Byte :=
  match m.find? fun c => c.1 == a with
  | some c => c.2
  | none => 0

/-- The byte at an address replaced, keeping the canonical form. -/
def Memory.write : Memory → Nat → Byte → Memory
  | [], a, v => if v = 0 then [] else [(a, v)]
  | c :: cs, a, v =>
    if a < c.1 then (if v = 0 then c :: cs else (a, v) :: c :: cs)
    else if a = c.1 then (if v = 0 then cs else (a, v) :: cs)
    else c :: Memory.write cs a v

/-- A block set to zero (R72). -/
def Memory.zeroBlock (m : Memory) (b : Nat) : Memory := m.filter fun c => c.1 / Config.blockBytes != b

/-- The canonical form: addresses strictly rising, and no entry equal to what an unlisted address reads as. -/
def Memory.wf : Memory → Bool
  | [] => true
  | c :: cs => c.2 != 0 && cs.all (fun d => c.1 < d.1) && Memory.wf cs

/-- The address of byte `a` of a segment with this block list, where the list reaches that far (R69). -/
def segAddr (blocks : List Nat) (a : Nat) : Option Nat :=
  (blocks[a / Config.blockBytes]?).map fun b => b * Config.blockBytes + a % Config.blockBytes

/-- Byte `a` of a segment (R69). -/
def segRead (m : Memory) (blocks : List Nat) (a : Nat) : Byte :=
  match segAddr blocks a with
  | some addr => m.read addr
  | none => 0

/-- Byte `a` of a segment replaced (R69). -/
def segWriteByte (m : Memory) (blocks : List Nat) (a : Nat) (v : Byte) : Memory :=
  match segAddr blocks a with
  | some addr => m.write addr v
  | none => m

/-- Consecutive bytes of a segment from offset `a` replaced (R77). -/
def segWriteBytes (m : Memory) (blocks : List Nat) (a : Nat) : List Byte → Memory
  | [] => m
  | v :: vs => segWriteBytes (segWriteByte m blocks a v) blocks (a + 1) vs

/-- `n` consecutive bytes of a segment from offset `a`. -/
def segReadBytes (m : Memory) (blocks : List Nat) (a n : Nat) : List Byte :=
  (List.range n).map fun i => segRead m blocks (a + i)

/-! ### The segment directory (R68), in ascending order of id -/

/-- Blocks that a length needs: ceil(length / 512) (R72). -/
def blocksFor (length : Nat) : Nat := (length + (Config.blockBytes - 1)) / Config.blockBytes

/-- The record with an id. -/
def Store.seg (st : Store) (id : Nat) : Option Segment := st.dir.find? fun g => g.id == id

/-- The record with an id changed. -/
def Store.update (st : Store) (id : Nat) (f : Segment → Segment) : Store :=
  { st with dir := st.dir.map fun g => if g.id == id then f g else g }

/-- A record put in its place by id. -/
def insertSeg (g : Segment) : List Segment → List Segment
  | [] => [g]
  | h :: hs => if g.id < h.id then g :: h :: hs else h :: insertSeg g hs

/-- A segment freed: its blocks join the tail of the free-block list in block-list order, and its record is removed
(R67, R84, R87). -/
def Store.free (st : Store) (g : Segment) : Store :=
  { st with freeList := st.freeList ++ g.blocks, dir := st.dir.filter fun h => h.id != g.id }

/-- A staged acquire (R85). -/
def Store.stagedAcquire (st : Store) (id : Nat) : Store :=
  st.update id fun g => { g with staged := g.staged + 1 }

/-- A staged release (R85). -/
def Store.stagedRelease (st : Store) (id : Nat) : Store :=
  st.update id fun g => { g with staged := g.staged - 1 }

end Sys2Proof.Machine
end

