-- ==== Sys2Proof/Machine/Link.lean ====
section
/-! DEFINITION. Machine/Link.lean: words, bytes and packets of a line (chapter 5, sections 5.1 to 5.3; chapter 6,
sections 6.2, 6.3 and 6.5; section 11.1). -/

namespace Sys2Proof.Machine

/-- The type a marker's type word names (R96). -/
def LineType.ofWord (w : Lane) : LineType :=
  if w = 0x26C then .frameHead else if w = 0x2B4 then .blank else if w = 0x31C then .active else .unknown w

/-- The type word of a line's marker (R96). -/
def LineType.word : LineType → Lane
  | .frameHead => 0x26C
  | .blank => 0x2B4
  | .active => 0x31C
  | .unknown w => w

/-- A byte as a lane word: 0x100 + the byte (R98). -/
def byteLane (b : Byte) : Lane := BitVec.ofNat 10 (0x100 + b.toNat)

/-- The byte a lane word carries, where the word lies in 0x100-0x1FF (R98). -/
def laneByte? (w : Lane) : Option Byte :=
  if 0x100 ≤ w.toNat ∧ w.toNat ≤ 0x1FF then some (w.setWidth 8) else none

/-- The bytes of a line (R98): two a word, until the end of the line or the first word in which either lane lies outside
0x100-0x1FF; only the bytes before that word. -/
def lineBytes : List DataWord → List Byte
  | [] => []
  | w :: ws =>
    match laneByte? w.luma, laneByte? w.chroma with
    | some a, some b => a :: b :: lineBytes ws
    | _, _ => []

/-- The byte of a word of section 11.1's row "Last byte of an odd-length packet" (R132): where the word at which R98's
bytes end holds a byte in the luma lane and 0x200 in the chroma lane, that byte; otherwise nothing. -/
def lastOddByte : List DataWord → List Byte
  | [] => []
  | w :: ws =>
    match laneByte? w.luma, laneByte? w.chroma with
    | some _, some _ => lastOddByte ws
    | some a, none => if w.chroma = 0x200 then [a] else []
    | none, _ => []

/-- The byte stream begins with the start code (R125). -/
def startsPacket (bs : List Byte) : Bool := bs.head? == some 0xC3

/-- The bytes are those of a packet but its last one: its header gives a length one byte longer (R125, section 11.3). -/
def lacksLastByte (bs : List Byte) : Bool := startsPacket bs && 14 + u2 bs 6 == bs.length + 1

/-- The byte stream of a line that the Packet Unit examines (R125): the bytes of R98 and nothing else, on every line but
one that carries an odd-length packet whose last byte stands beside chroma 0x200, as R132 lays it. That line's stream
ends at the end of the packet, in R132's words (log 7). -/
def packetStream (data : List DataWord) : List Byte :=
  let bs := lineBytes data
  if lacksLastByte bs then bs ++ lastOddByte data else bs

/-- Empty-line content: luma 0x040, chroma 0x200 (R98, R132). -/
def emptyWord : DataWord := ⟨0x040, 0x200⟩

/-- A line of `width` words of empty-line content. -/
def emptyLine (width : Nat) : List DataWord := List.replicate width emptyWord

/-- A packet laid two bytes a word; the chroma lane beside a last odd byte carries 0x200 (R132). -/
def packWords : List Byte → List DataWord
  | [] => []
  | [a] => [⟨byteLane a, 0x200⟩]
  | a :: b :: rest => ⟨byteLane a, byteLane b⟩ :: packWords rest

/-- Data words a packet needs: ceil(b / 2) (R132). -/
def wordsFor (packet : List Byte) : Nat := (packet.length + 1) / 2

/-- A line that carries a packet: the packet from word 0, then empty-line content (R132). -/
def packetLine (packet : List Byte) (width : Nat) : List DataWord :=
  packWords packet ++ emptyLine (width - wordsFor packet)

/-- The word that carries a frame number (R97, R103). -/
def frameWord (f : FrameNo) : DataWord :=
  ⟨BitVec.ofNat 10 (0x100 + f.toNat / 256), BitVec.ofNat 10 (0x100 + f.toNat % 256)⟩

/-- The frame number a FRAME_HEAD line carries, where it is decodable (R97). -/
def frameNumber? (data : List DataWord) : Option FrameNo :=
  match data with
  | [] => none
  | w :: _ =>
    match laneByte? w.luma, laneByte? w.chroma with
    | some hi, some lo => some (hi ++ lo)
    | _, _ => none

/-- The FRAME_HEAD line's data with the frame number in word 0 (R103). A line without data words keeps its width of 0
and carries no number: R103 asks for both the width and the number, and the model's choice is the width (log 29). -/
def withFrameNumber (f : FrameNo) : List DataWord → List DataWord
  | [] => []
  | _ :: ws => frameWord f :: ws

/-- A line position lies in a management range (R99). -/
def MgmtRange.holds (r : MgmtRange) (pos : Nat) : Bool := r.first ≤ pos && pos < r.first + r.count

/-- The range the parameters give (R124). -/
def Params.range (q : Params) : MgmtRange := { first := q.mgmtFirstLine, count := q.mgmtLineCount }

/-- What the Packet Unit hands the Channel Unit of one command packet (R128, R142). -/
structure Fragment where
  ch : Chan
  index : Nat
  last : Bool
  seq : SeqNo
  kind : Byte
  payload : List Byte
deriving DecidableEq, Repr

/-- The disposition of an inbound management line (R127). -/
inductive Disposition where
  | free
  | forwarded
  | consumed (f : Fragment)
  | broadcast (f : Fragment)
deriving DecidableEq, Repr

/-- The fragment a command packet carries (R128, section 11.3). -/
def fragmentOf (bs : List Byte) : Fragment :=
  { ch := Fin.ofNat 4 (u1 bs 3)
    index := u1 bs 3 / 16 % 8
    last := u1 bs 3 / 128 == 1
    seq := BitVec.ofNat 4 (u1 bs 4)
    kind := (bs[5]?).getD 0
    payload := (bs.drop 12).take (u2 bs 6) }

/-- The line is malformed: fewer than 14 bytes, a payload length above 1024, or bytes missing (R125). -/
def malformed (bs : List Byte) : Bool :=
  bs.length < 14 || 1024 < u2 bs 6 || bs.length < 14 + u2 bs 6

/-- A complete packet's CRC-16 agrees with its CRC bytes (R126). -/
def crcAgrees (bs : List Byte) : Bool :=
  (crc16 (bs.take (12 + u2 bs 6))).toNat == u2 bs (12 + u2 bs 6)

/-- The line sets PACKET_CRC: it is malformed or fails its CRC-16 (R126). -/
def packetFails (bs : List Byte) : Bool := startsPacket bs && (malformed bs || !crcAgrees bs)

/-- The disposition of an inbound management line with these bytes, at a part with this address: the first row of
R127's table that applies. -/
def disposition (address : BitVec 5) (bs : List Byte) : Disposition :=
  if !startsPacket bs then .free
  else if malformed bs || !crcAgrees bs then .forwarded
  else if u1 bs 1 / 16 ≠ 1 then .forwarded
  else if u1 bs 1 % 2 = 1 then .forwarded
  else if u1 bs 2 = address.toNat then .consumed (fragmentOf bs)
  else if u1 bs 2 = 63 then .broadcast (fragmentOf bs)
  else .forwarded

end Sys2Proof.Machine
end

