-- ==== Sys2Proof/Machine/Compositor.lean ====
section
/-! DEFINITION. Machine/Compositor.lean: the Overlay Compositor (chapters 1 and 2): derived values, source addressing,
composition of a line, the frame-head decision, edits written into the active tables, and its two queries. -/

namespace Sys2Proof.Machine

/-! ### Derived values (R3) -/

/-- Bytes of one bitmap row: ceil(source width x depth / 8). -/
def WindowRec.stride (w : WindowRec) : Nat := (w.srcWidth * w.depth.bits + 7) / 8

/-- Stride x source height. -/
def WindowRec.required (w : WindowRec) : Nat := w.stride * w.srcHeight

/-- Line `y` lies in the unclipped vertical span. -/
def WindowRec.coversLine (w : WindowRec) (y : Nat) : Bool :=
  w.originY ≤ y && y < w.originY + w.srcHeight * w.vScale.factor

/-- Column `x` lies in the unclipped horizontal span. -/
def WindowRec.coversColumn (w : WindowRec) (x : Nat) : Bool :=
  w.originX ≤ x && x < w.originX + w.srcWidth * w.hScale.factor

/-- The window blinks: both counts nonzero (R18). -/
def WindowRec.blinks (w : WindowRec) : Bool := w.blinkOn != 0 && w.blinkOff != 0

/-! ### Colour arithmetic (R27, R28, R14) -/

/-- A contributing window's weight: floor(opacity x level / 8) (R27). -/
def weight (opacity : Fin 17) (level : Fin 9) : Nat := opacity.val * level.val / 8

/-- The blend of component `c` over running value `b` with weight `o` (R28). -/
def blend (o : Nat) (c b : Lane) : Lane := BitVec.ofNat 10 ((o * c.toNat + (16 - o) * b.toNat + 8) / 16)

/-- The clamp of a composed lane (R14). -/
def clampLane (v : Lane) : Lane := if v.toNat < 4 then 4 else if 1019 < v.toNat then 1019 else v

/-! ### Source addressing (R5, R6) -/

/-- The raw value of source column `c` in a row of bytes: packed from the most significant end (R5). -/
def rawValue (d : Depth) (row : List Byte) (c : Nat) : Nat :=
  let perByte := 8 / d.bits
  u1 row (c / perByte) / 2 ^ (8 - d.bits * (c % perByte + 1)) % 2 ^ d.bits

/-- The palette index of a raw value: the remap's entry, or the value itself for depth 8 (R12). -/
def WindowRec.paletteIndex (w : WindowRec) (raw : Nat) : Nat :=
  match w.remap with
  | some list => (list[raw]?).getD 0
  | none => raw

/-- The entry at an index of a palette (R24). -/
def Compositor.palEntry (c : Compositor) (palette : Fin 4) (i : Nat) : PalEntry :=
  ((c.palettes[palette.val]?).bind fun p => p[i]?).getD PalEntry.reset

/-- A row the compositor fetches for one line: the window and its row's bytes (R7). -/
structure RowFetch where
  win : WindowRec
  bytes : List Byte
deriving DecidableEq, Repr

/-- The source row's bytes for output line `y`: stride bytes from row x stride of the window's segment (R5, R6, R7). -/
def Store.rowBytes (st : Store) (w : WindowRec) (y : Nat) : List Byte :=
  match w.segment.bind st.seg with
  | some g => segReadBytes st.mem g.blocks ((y - w.originY) / w.vScale.factor * w.stride) w.stride
  | none => []

/-- A window fetched for line `y` of `width` pixels: shown, its vertical span covers the line, and its footprint
there is not empty (R7). -/
def WinSlot.fetched (sl : WinSlot) (y width : Nat) : Bool :=
  sl.shown && sl.win.coversLine y && decide (sl.win.originX < width)

/-- The compositor's fetches for a line, in ascending priority, the order in which windows are visited (R7, R10). -/
def State.rowFetches (s : State) (y width : Nat) : List RowFetch :=
  (List.range 8).flatMap fun p =>
    (s.comp.slots.filter fun sl => sl.fetched y width && sl.win.priority.val == p).map fun sl =>
      { win := sl.win, bytes := s.store.rowBytes sl.win y }

/-! ### Composing a line (R8 to R15) -/

/-- One window visited at column `x`: it contributes where its footprint holds the pixel and its key does not equal
the raw value; then it blends Y into luma and Cb (x even) or Cr (x odd) into chroma (R11 to R13). -/
def visit (c : Compositor) (x : Nat) (pix : DataWord) (f : RowFetch) : DataWord :=
  if f.win.coversColumn x then
    let raw := rawValue f.win.depth f.bytes ((x - f.win.originX) / f.win.hScale.factor)
    if f.win.key = some raw then pix
    else
      let e := c.palEntry f.win.palette (f.win.paletteIndex raw)
      let o := weight e.opacity f.win.level
      ⟨blend o e.y pix.luma, blend o (if x % 2 = 0 then e.cb else e.cr) pix.chroma⟩
  else pix

/-- One output pixel: the base, the windows in the order visited, one clamp at the end (R10, R14). -/
def composePixel (c : Compositor) (fetches : List RowFetch) (x : Nat) (base : DataWord) : DataWord :=
  let pix := fetches.foldl (visit c x) base
  ⟨clampLane pix.luma, clampLane pix.chroma⟩

/-- A composed ACTIVE line with line coordinate `y` over its base pixels (R10); windows are clipped at the line's own
end (R15). -/
def State.composeLine (s : State) (y : Nat) (base : List DataWord) : List DataWord :=
  let fetches := s.rowFetches y base.length
  base.mapIdx fun x pix => composePixel s.comp fetches x pix

/-- The fill base of a line: Y, and Cb at even or Cr at odd pixels (R8, R30). -/
def fillBase (c : Colour) (width : Nat) : List DataWord :=
  (List.range width).map fun x => DataWord.mk c.y (if x % 2 = 0 then c.cb else c.cr)

/-! ### The frame-head decision (R16, R18, R19) -/

/-- A frame is composed when latched LOCKED, HOLDOVER or REJOINING (R16). -/
def LockState.composed : LockState → Bool
  | .locked => true
  | .holdover => true
  | .rejoining => true
  | .acquiring => false
  | .noSignal => false

/-- The show condition admits a frame with this latch (R19). -/
def ShowCond.admits (k : ShowCond) (latch : LockState) : Bool :=
  match k with
  | .always => latch.composed
  | .signal => latch == .locked
  | .noSignal => latch.composed && latch != .locked

/-- The blink phase of an untouched window after a head (R18). -/
def WinSlot.nextPhase (sl : WinSlot) (latch : LockState) : Nat :=
  if sl.win.blinks then
    if latch.composed then
      if sl.phase + 1 = sl.win.blinkOn + sl.win.blinkOff then 0 else sl.phase + 1
    else sl.phase
  else 0

/-- The shown decision (R19). -/
def WinSlot.shownIn (sl : WinSlot) (latch : LockState) : Bool :=
  sl.win.enabled && sl.win.cond.admits latch && (!sl.win.blinks || decide (sl.phase < sl.win.blinkOn))

/-- The shown decision made for every window. -/
def Compositor.decideShown (c : Compositor) : Compositor :=
  { c with slots := c.slots.map fun sl => { sl with shown := sl.shownIn c.latch } }

/-- The compositor at an output frame head: the latch, the phases of untouched windows, the shown decision (R16, R18,
R19). A window an application touches at this head gets its phase 0 with the application (R18, log 2). -/
def Compositor.atHead (c : Compositor) (lock : LockState) : Compositor :=
  Compositor.decideShown
    { c with latch := lock, slots := c.slots.map fun sl => { sl with phase := sl.nextPhase lock } }

/-- No window is shown any more (R21, R22). -/
def Compositor.hideAll (c : Compositor) : Compositor :=
  { c with slots := c.slots.map fun sl => { sl with shown := false } }

/-! ### Edits written into the active tables (R17, R26, R31) -/

/-- The edit is of a kind that touches window `i` (R17). -/
def Edit.touches (e : Edit) (i : Nat) : Bool :=
  match e with
  | .winStage j _ => i == j
  | .winPlace j _ _ => i == j
  | .winShow j _ => i == j
  | .palStage _ _ _ => false
  | .fillStage _ => false

/-- The record of one window changed. -/
def setWin (slots : List WinSlot) (i : Nat) (f : WindowRec → WindowRec) : List WinSlot :=
  slots.modify i fun sl => { sl with win := f sl.win }

/-- A run of entries of a palette replaced (R26). -/
def writeRun (pal : List PalEntry) (first : Nat) (entries : List PalEntry) : List PalEntry :=
  pal.mapIdx fun i e => if first ≤ i then (entries[i - first]?).getD e else e

/-- One edit written (R17). -/
def Compositor.write (c : Compositor) (e : Edit) : Compositor :=
  match e with
  | .winStage i w => { c with slots := setWin c.slots i fun _ => w }
  | .winPlace i x y => { c with slots := setWin c.slots i fun w => { w with originX := x, originY := y } }
  | .winShow i on => { c with slots := setWin c.slots i fun w => { w with enabled := on } }
  | .palStage p first entries => { c with palettes := c.palettes.modify p fun pal => writeRun pal first entries }
  | .fillStage colour => { c with fill := colour }

/-- Edits written in order: later ones overwrite earlier ones where they meet (R17, R46). -/
def Compositor.writeAll (c : Compositor) (edits : List Edit) : Compositor := edits.foldl Compositor.write c

/-- Touched windows begin their blink cycle again (R18). -/
def Compositor.restartTouched (c : Compositor) (edits : List Edit) : Compositor :=
  { c with slots := c.slots.mapIdx fun i sl => if edits.any (·.touches i) then { sl with phase := 0 } else sl }

/-- An application at the compositor: edits written, touched phases 0, shown decision (R17, R18, R19). -/
def Compositor.apply (c : Compositor) (edits : List Edit) : Compositor :=
  ((c.writeAll edits).restartTouched edits).decideShown

/-- The window records of the tables, by index. -/
def Compositor.wins (c : Compositor) : List WindowRec := c.slots.map (·.win)

/-! ### QUERY_WINDOW and QUERY_PALETTE (R22, R33) -/

/-- QUERY_WINDOW: record, blink phase, shown in the current frame (R22). -/
def State.takeQueryWindow (s : State) (p : List Byte) : State × Reply :=
  match firstBad (queryWindowChecks p) with
  | some pos => (s, badValue pos)
  | none =>
    match s.comp.slots[u1 p 0]? with
    | some sl => (s, .answer .ok (windowBytes (u1 p 0) sl.win ++ be2 sl.phase ++ [boolByte sl.shown]))
    | none => (s, badValue 0)

/-- QUERY_PALETTE: the three fields as received, the entries, the fill colour (R33). -/
def State.takeQueryPalette (s : State) (p : List Byte) : State × Reply :=
  match firstBad (queryPaletteChecks p) with
  | some pos => (s, badValue pos)
  | none =>
    (s, .answer .ok (p.take 5
      ++ ((List.range (u2 p 3)).flatMap fun k => palEntryBytes (s.comp.palEntry (Fin.ofNat 4 (u1 p 0)) (u2 p 1 + k)))
      ++ colourBytes s.comp.fill))

end Sys2Proof.Machine
end

