-- ==== Sys2Proof/Machine/Flags.lean ====
section
/-! DEFINITION. Machine/Flags.lean: the event flags (R179) and the admission of notices (R183). -/

namespace Sys2Proof.Machine

/-- The names of the event flags (R179). -/
inductive EventFlag where
  | lockChange
  | geometryFault
  | lateApply
  | assemblyTimeout
  | responseDropped
  | noticeDropped
  | packetCrc
  | segmentReleased
deriving DecidableEq, Repr

/-- A flag set. -/
def Flags.raise (f : Flags) : EventFlag → Flags
  | .lockChange => { f with lockChange := true }
  | .geometryFault => { f with geometryFault := true }
  | .lateApply => { f with lateApply := true }
  | .assemblyTimeout => { f with assemblyTimeout := true }
  | .responseDropped => { f with responseDropped := true }
  | .noticeDropped => { f with noticeDropped := true }
  | .packetCrc => { f with packetCrc := true }
  | .segmentReleased => { f with segmentReleased := true }

/-- A flag read. -/
def Flags.get (f : Flags) : EventFlag → Bool
  | .lockChange => f.lockChange
  | .geometryFault => f.geometryFault
  | .lateApply => f.lateApply
  | .assemblyTimeout => f.assemblyTimeout
  | .responseDropped => f.responseDropped
  | .noticeDropped => f.noticeDropped
  | .packetCrc => f.packetCrc
  | .segmentReleased => f.segmentReleased

/-- The flags as the status record's byte 46: the sum of the weights of the flags set (section 11.8). -/
def Flags.weights (f : Flags) : Nat :=
  f.lockChange.toNat + 2 * f.geometryFault.toNat + 4 * f.lateApply.toNat + 8 * f.assemblyTimeout.toNat
    + 16 * f.responseDropped.toNat + 32 * f.noticeDropped.toNat + 64 * f.packetCrc.toNat
    + 128 * f.segmentReleased.toNat

/-- An event sets its flag, whatever NOTICE_MASK and RESETTING are (R179). -/
def State.raise (s : State) (f : EventFlag) : State :=
  { s with status := { s.status with flags := s.status.flags.raise f } }

/-- The six notice kinds (R183). -/
inductive NoticeKind where
  | lockState
  | applied
  | lateApply
  | segmentReady
  | segmentReleased
  | assemblyTimeout
deriving DecidableEq, Repr

/-- A notice's weight in NOTICE_MASK (R172). -/
def NoticeKind.weight : NoticeKind → Nat
  | .lockState => 1
  | .applied => 2
  | .lateApply => 4
  | .segmentReady => 8
  | .segmentReleased => 16
  | .assemblyTimeout => 32

/-- A notice's code, the first byte of its payload (section 11.4). -/
def NoticeKind.code : NoticeKind → Byte
  | .lockState => 1
  | .applied => 2
  | .lateApply => 3
  | .segmentReady => 4
  | .segmentReleased => 5
  | .assemblyTimeout => 6

/-- The kind is enabled in NOTICE_MASK (R172). -/
def Params.noticeEnabled (q : Params) (k : NoticeKind) : Bool := q.noticeMask / k.weight % 2 == 1

/-- The packet of a notice: kind NOTICE, channel 0, sequence 0, result code OK, notice code and data (R137, R183). -/
def State.noticePacket (s : State) (k : NoticeKind) (data : List Byte) : List Byte :=
  s.packet 0 0 noticeKind .ok (k.code :: data)

/-- A notice is offered: admitted when its kind is enabled and there is room; an enabled kind that finds no room sets
NOTICE_DROPPED; a disabled kind is not kept (R183). -/
def State.offerNotice (s : State) (k : NoticeKind) (data : List Byte) : State :=
  if s.status.params.noticeEnabled k then
    if s.pkt.room then { s with pkt := s.pkt.fill (s.noticePacket k data) false } else s.raise .noticeDropped
  else s

end Sys2Proof.Machine
end

