-- ==== Sys2Proof/Machine/Store.lean ====
section
/-! DEFINITION. Machine/Store.lean: the Bitmap Store (chapter 4): segment messages, store operations and their
completions, reference claims, and the queries of the directory. -/

namespace Sys2Proof.Machine

/-- A refusal that names a segment id (section 11.10). -/
def noSegment (id : Nat) : Reply := .answer .noSegment (be4 id)

/-- A refusal that carries id and state (NOT_READY, EXISTS, CLOSED; section 11.10). -/
def segRefusal (code : Code) (g : Segment) : Reply := .answer code (be4 g.id ++ [byte g.state.code])

/-- BUSY from the Bitmap Store: id, state, queued-operation count (section 11.10). -/
def storeBusy (g : Segment) : Reply := .answer .busy (be4 g.id ++ [byte g.state.code, byte g.queued])

/-! ### SEG_CREATE and SEG_DELETE (R71, R72, R83, R84) -/

/-- A segment created: the first blocks of the free-block list, zeroed, and a LOADING record (R72). -/
def Store.create (st : Store) (id length : Nat) : Store :=
  let k := blocksFor length
  let blocks := st.freeList.take k
  { st with
    mem := blocks.foldl Memory.zeroBlock st.mem
    freeList := st.freeList.drop k
    dir := insertSeg { id := id, state := .loading, length := length, blocks := blocks, active := 0, staged := 0,
                       queued := 0, check := none } st.dir }

/-- SEG_CREATE: the checks of R71 in order, then the taking of R72. -/
def State.takeSegCreate (s : State) (p : List Byte) : State × Reply :=
  let id := u4 p 0
  let length := u4 p 4
  match firstBad (segCreateChecks p) with
  | some pos => (s, badValue pos)
  | none =>
    match s.store.seg id with
    | some g => (s, segRefusal .exists_ g)
    | none =>
      if Config.maxSegments ≤ s.store.dir.length then (s, .answer .directoryFull [])
      else if s.store.freeList.length < blocksFor length then
        (s, .answer .noSpace (be2 (blocksFor length) ++ be2 s.store.freeList.length))
      else
        let st := s.store.create id length
        ({ s with store := st },
         .answer .ok (be4 id ++ be4 length ++ be2 (blocksFor length) ++ be2 st.freeList.length))

/-- SEG_DELETE: the checks of R83 in order, then freed or RETIRING (R84). -/
def State.takeSegDelete (s : State) (p : List Byte) : State × Reply :=
  match s.store.seg (u4 p 0) with
  | none => (s, noSegment (u4 p 0))
  | some g =>
    if g.state = .verifying ∨ 0 < g.queued then (s, storeBusy g)
    else if 0 < g.staged then (s, .answer .inUse [byte g.staged])
    else if g.state = .retiring then (s, .answer .retiring (be4 g.id))
    else if g.active = 0 then
      let st := s.store.free g
      ({ s with store := st }, .answer .ok (be4 g.id ++ [0] ++ be2 st.freeList.length))
    else
      ({ s with store := s.store.update g.id fun h => { h with state := .retiring } },
       .answer .ok (be4 g.id ++ [1] ++ be2 g.active))

/-! ### SEG_WRITE and SEG_CLOSE (R76, R77, R79) -/

/-- An operation joins the tail of the access queue, and its segment's queued-operation count rises (R75). -/
def Store.enqueue (st : Store) (id : Nat) (op : StoreOp) : Store :=
  { st.update id (fun g => { g with queued := g.queued + 1 }) with queue := st.queue ++ [op] }

/-- SEG_WRITE: the checks of R76 in order, then queued with its data (R77). -/
def State.takeSegWrite (s : State) (ch : Chan) (p : List Byte) : State × Reply :=
  let id := u4 p 0
  let data := p.drop 8
  match s.store.seg id with
  | none => (s, noSegment id)
  | some g =>
    match g.state with
    | .verifying => (s, storeBusy g)
    | .ready => (s, segRefusal .closed g)
    | .retiring => (s, segRefusal .closed g)
    | .loading =>
      if g.length < u4 p 4 + data.length then (s, .answer .writeRange (be4 g.length))
      else ({ s with store := s.store.enqueue id (.write id ch (u4 p 4) data) }, .queued)

/-- SEG_CLOSE: the checks of R79 in order, then VERIFYING with a verify queued. -/
def State.takeSegClose (s : State) (ch : Chan) (p : List Byte) : State × Reply :=
  let id := u4 p 0
  match s.store.seg id with
  | none => (s, noSegment id)
  | some g =>
    match g.state with
    | .verifying => (s, storeBusy g)
    | .ready => (s, segRefusal .closed g)
    | .retiring => (s, segRefusal .closed g)
    | .loading =>
      let st := s.store.update id fun h => { h with state := .verifying }
      ({ s with store := st.enqueue id (.verify id ch (BitVec.ofNat 32 (u4 p 4))) }, .queued)

/-! ### Completions (R77, R81) -/

/-- The head operation leaves the access queue and its segment's queued-operation count falls (R75). -/
def Store.dequeue (st : Store) (id : Nat) : Store :=
  { st.update id (fun g => { g with queued := g.queued - 1 }) with queue := st.queue.tail }

/-- A bulk channel leaves EXECUTING: its reservation is filled with the result, which becomes its cached response
(R75, R152). -/
def State.finishBulk (s : State) (ch : Chan) (kind : Byte) (code : Code) (payload : List Byte) : State :=
  let s := s.answerWith ch (s.chan ch).last kind code payload false
  s.setChan ch { s.chan ch with state := .idle }

/-- The data of a completed write land in the segment (R77); no byte lands where the segment has no record, which no run
meets (log 18). -/
def Store.land (st : Store) (id offset : Nat) (data : List Byte) : Store :=
  match st.seg id with
  | some g => { st with mem := segWriteBytes st.mem g.blocks offset data }
  | none => st

/-- Completion of the write at the head of the queue: OK whatever the segment's state (R77), and with OK by the model's
choice where the segment has no record, which R77 and R83 let no run meet (log 18). -/
def State.completeWrite (s : State) (id : Nat) (ch : Chan) (offset : Nat) (data : List Byte) : State :=
  let s := { s with store := (s.store.land id offset data).dequeue id }
  s.finishBulk ch Kind.segWrite.code .ok (be4 id ++ be4 offset ++ be2 data.length)

/-- The CRC-32 of a segment's bytes from offset 0 to length - 1 (R80). -/
def Store.checkOf (st : Store) (g : Segment) : BitVec 32 := crc32 (segReadBytes st.mem g.blocks 0 g.length)

/-- Completion of the verify at the head of the queue: READY on a match, LOADING on a mismatch (R81); NO_SEGMENT by the
model's choice where the segment has no record, which no run meets (log 18). -/
def State.completeVerify (s : State) (id : Nat) (ch : Chan) (carried : BitVec 32) : State :=
  match s.store.seg id with
  | some g =>
    let computed := s.store.checkOf g
    let st := s.store.dequeue id
    if computed = carried then
      let s := { s with store := st.update id fun h => { h with state := .ready, check := some computed } }
      let data := be4 id ++ be4 g.length ++ be4 computed.toNat
      (s.finishBulk ch Kind.segClose.code .ok data).offerNotice .segmentReady data
    else
      let s := { s with store := st.update id fun h => { h with state := .loading, check := none } }
      s.finishBulk ch Kind.segClose.code .checkMismatch (be4 id ++ be4 carried.toNat ++ be4 computed.toNat)
  | none =>
    let s := { s with store := s.store.dequeue id }
    s.finishBulk ch Kind.segClose.code .noSegment (be4 id)

/-! ### Reference claims (R85 to R87) -/

/-- Staged releases for the WIN_STAGE edits of a set that name a segment (R85). -/
def Store.releaseStaged (st : Store) (edits : List Edit) : Store :=
  edits.foldl (fun st e =>
    match e with
    | .winStage _ w =>
      match w.segment with
      | some id => st.stagedRelease id
      | none => st
    | _ => st) st

/-- An active release: the count falls by one, and a RETIRING segment whose count reaches 0 is freed with its flag
and notice (R86, R87); `f` is the number of the head. -/
def State.activeRelease (s : State) (f : FrameNo) (id : Nat) : State :=
  match s.store.seg id with
  | none => s
  | some g =>
    if g.state = .retiring ∧ g.active - 1 = 0 then
      let s := { s with store := s.store.free g }
      (s.raise .segmentReleased).offerNotice .segmentReleased (be4 id ++ be2 g.blocks.length ++ be2 f.toNat)
    else { s with store := s.store.update id fun h => { h with active := h.active - 1 } }

/-- An active acquire (R86). -/
def State.activeAcquire (s : State) (id : Nat) : State :=
  { s with store := s.store.update id fun h => { h with active := h.active + 1 } }

/-- The move of one window from the segment it named to the one it names (R56, R86). -/
def State.activeMove (s : State) (f : FrameNo) (before after : Option Nat) : State :=
  if before = after then s
  else
    let s := match before with
      | some id => s.activeRelease f id
      | none => s
    match after with
    | some id => s.activeAcquire id
    | none => s

/-! ### Queries (R90, R91) -/

/-- QUERY_SEGMENT: the directory record (R90). -/
def State.takeQuerySegment (s : State) (p : List Byte) : State × Reply :=
  match s.store.seg (u4 p 0) with
  | none => (s, noSegment (u4 p 0))
  | some g =>
    (s, .answer .ok (be4 g.id ++ [byte g.state.code] ++ be4 g.length ++ be2 g.blocks.length
      ++ be2 (g.blocks.headD 0) ++ be2 (g.blocks.getLastD 0) ++ [byte g.active, byte g.staged, byte g.queued]
      ++ match g.check with
         | some v => 1 :: be4 v.toNat
         | none => [0, 0, 0, 0, 0]))

/-- QUERY_DIRECTORY: counts, and each segment's id and state in ascending order of id (R91). -/
def State.takeQueryDirectory (s : State) (_p : List Byte) : State × Reply :=
  (s, .answer .ok ([byte s.store.dir.length] ++ be2 s.store.freeList.length ++ [byte s.store.queue.length]
    ++ s.store.dir.flatMap fun g => [byte g.id, byte g.state.code]))

/-! ### Reset (R93, R94) -/

/-- OVERLAY: counts 0, RETIRING segments freed in ascending order of id, the rest and the queue kept (R93). -/
def Store.overlayReset (st : Store) : Store :=
  { st with
    freeList := st.freeList ++ (st.dir.filter fun g => g.state == .retiring).flatMap (·.blocks)
    dir := (st.dir.filter fun g => g.state != .retiring).map fun g => { g with active := 0, staged := 0 } }

/-- FULL: directory and queue emptied, the free-block list 0 to 4095 (R94). -/
def Store.fullReset (st : Store) : Store :=
  { st with freeList := List.range Config.blockCount, dir := [], queue := [] }

end Sys2Proof.Machine
end

