-- ==== Sys2Proof/Machine/ChangeSets.lean ====
section
/-! DEFINITION. Machine/ChangeSets.lean: the Change-Set Unit (chapter 3): staging, the projection and its checks,
commit, discard, withdraw, and application at an output frame head. -/

namespace Sys2Proof.Machine

/-- An edit's payload length (R36). -/
def Edit.bytes : Edit → Nat
  | .winStage _ w => 24 + (w.remap.getD []).length
  | .winPlace _ _ _ => 6
  | .winShow _ _ => 2
  | .palStage _ _ entries => 4 + 8 * entries.length
  | .fillStage _ => 6

/-- The staged bytes of a set (R36). -/
def stagedBytes (edits : List Edit) : Nat := (edits.map Edit.bytes).sum

/-- A set's edit count and staged bytes, as responses carry them (section 11.10). -/
def setCounts (edits : List Edit) : List Byte := byte edits.length :: be2 (stagedBytes edits)

/-! ### Staging (R37 to R44) -/

/-- The capacity check, then the append at the tail of the open set (R37, R38). -/
def State.stage (s : State) (e : Edit) : State × Reply :=
  if Config.maxEdits ≤ s.cset.openSet.length ∨ Config.maxStagedBytes < stagedBytes s.cset.openSet + e.bytes then
    (s, .answer .setFull (setCounts s.cset.openSet))
  else
    ({ s with cset := { s.cset with openSet := s.cset.openSet ++ [e] } },
     .answer .ok (setCounts (s.cset.openSet ++ [e])))

/-- The segment checks of a WIN_STAGE: the refusal, or none where they pass (R40). -/
def Store.segmentRefusal (st : Store) (segment : Option Nat) : Option Reply :=
  match segment with
  | none => none
  | some id =>
    match st.seg id with
    | none => some (noSegment id)
    | some g =>
      match g.state with
      | .loading => some (segRefusal .notReady g)
      | .verifying => some (segRefusal .notReady g)
      | .retiring => some (.answer .retiring (be4 g.id))
      | .ready => none

/-- The staged reference a taken WIN_STAGE claims (R40, R85). -/
def Store.claimStaged (st : Store) (segment : Option Nat) : Store :=
  match segment with
  | some id => st.stagedAcquire id
  | none => st

/-- WIN_STAGE: value checks, segment checks, capacity check, append and claim (R38 to R40). -/
def State.takeWinStage (s : State) (p : List Byte) : State × Reply :=
  match firstBad (winStageChecks p) with
  | some pos => (s, badValue pos)
  | none =>
    let w := windowOf p
    match s.store.segmentRefusal w.segment with
    | some refusal => (s, refusal)
    | none =>
      match s.stage (.winStage (u1 p 0) w) with
      | (s', .answer .ok payload) =>
        ({ s' with store := s'.store.claimStaged w.segment }, .answer .ok payload)
      | refused => refused

/-- WIN_PLACE (R41). -/
def State.takeWinPlace (s : State) (p : List Byte) : State × Reply :=
  match firstBad (winPlaceChecks p) with
  | some pos => (s, badValue pos)
  | none => s.stage (.winPlace (u1 p 0) (u2 p 2) (u2 p 4))

/-- WIN_SHOW (R42). -/
def State.takeWinShow (s : State) (p : List Byte) : State × Reply :=
  match firstBad (winShowChecks p) with
  | some pos => (s, badValue pos)
  | none => s.stage (.winShow (u1 p 0) (u1 p 1 == 1))

/-- PAL_STAGE (R43). -/
def State.takePalStage (s : State) (p : List Byte) : State × Reply :=
  match firstBad (palStageChecks p) with
  | some pos => (s, badValue pos)
  | none => s.stage (.palStage (u1 p 0) (u1 p 1) ((List.range (u2 p 2)).map fun k => palEntryOf p (4 + 8 * k)))

/-- FILL_STAGE (R44). -/
def State.takeFillStage (s : State) (p : List Byte) : State × Reply :=
  match firstBad (fillStageChecks p) with
  | some pos => (s, badValue pos)
  | none => s.stage (.fillStage (colourOf p))

/-! ### The projection and its checks (R46, R47, R49) -/

/-- The projected window records: the open set written over the active tables (R46). -/
def State.projection (s : State) : List WindowRec := (s.comp.writeAll s.cset.openSet).wins

/-- The line load at a line coordinate: the sum of the strides of the enabled windows that cover it (R4, R47). -/
def lineLoad (wins : List WindowRec) (y : Nat) : Nat :=
  ((wins.filter fun w => w.enabled && w.coversLine y).map WindowRec.stride).sum

/-- The better of two (line, load) pairs: the greater load, then the lower line. -/
def betterLine (a b : Nat × Nat) : Nat × Nat :=
  if a.2 < b.2 ∨ (a.2 = b.2 ∧ b.1 < a.1) then b else a

/-- The lowest line coordinate at which the maximum line load occurs, and the maximum (R47, R49). The load only rises
at a line where an enabled window begins, so those lines and line 0 are the ones compared. -/
def peakLine (wins : List WindowRec) : Nat × Nat :=
  ((wins.filter (·.enabled)).map fun w => (w.originY, lineLoad wins w.originY)).foldl betterLine (0, lineLoad wins 0)

/-- The indices of the enabled windows, ascending. -/
def enabledIndices (wins : List WindowRec) : List Nat :=
  (List.range wins.length).filter fun i => (wins[i]?).any (·.enabled)

/-- Two windows by index share a priority. -/
def samePriority (wins : List WindowRec) (i j : Nat) : Bool :=
  match wins[i]?, wins[j]? with
  | some v, some w => v.priority == w.priority
  | _, _ => false

/-- The lowest enabled window that shares its priority with another, the lowest other one, and the priority (R49). -/
def priorityClash (wins : List WindowRec) : Option (Nat × Nat × Nat) :=
  let on := enabledIndices wins
  (on.find? fun i => on.any fun j => j != i && samePriority wins i j).bind fun i =>
    (on.find? fun j => j != i && samePriority wins i j).map fun j =>
      (i, j, ((wins[i]?).map (·.priority.val)).getD 0)

/-- The length of the segment a window names; 0 where it is in no directory record (log 18). -/
def Store.lengthOf (st : Store) (segment : Option Nat) : Nat :=
  ((segment.bind st.seg).map (·.length)).getD 0

/-- The projection checks in order: the refusal of the first that fails (R49). -/
def projectionRefusal (st : Store) (wins : List WindowRec) : Option Reply :=
  match priorityClash wins with
  | some (i, j, p) => some (.answer .priorityClash [byte i, byte j, byte p])
  | none =>
    match (enabledIndices wins).find? fun i => (wins[i]?).any fun w => w.segment.isNone with
    | some i => some (.answer .noSegment [byte i])
    | none =>
      match (enabledIndices wins).find? fun i => (wins[i]?).any fun w => st.lengthOf w.segment < w.required with
      | some i =>
        some (.answer .segmentShort (byte i ::
          be4 (((wins[i]?).map WindowRec.required).getD 0) ++ be4 (st.lengthOf ((wins[i]?).bind (·.segment)))))
      | none =>
        if Config.maxLineLoad < (peakLine wins).2 then
          some (.answer .lineLoad (be2 (peakLine wins).1 ++ be2 (peakLine wins).2))
        else none

/-! ### SET_COMMIT, SET_DISCARD, SET_WITHDRAW (R48 to R51, R60, R61) -/

/-- The current frame number a commit is checked against (R48). -/
def State.currentFrame (s : State) : FrameNo := s.timing.frame.getD 0

/-- The lead d = (n - c) mod 65536 (R48). -/
def State.lead (s : State) (n : FrameNo) : Nat := (n - s.currentFrame).toNat

/-- Steps 3 and 4 of R48: LATE and FAR, for AT_FRAME only. -/
def State.targetRefusal (s : State) (t : Target) : Option Reply :=
  match t with
  | .next => none
  | .atFrame n =>
    let data := be2 n.toNat ++ be2 s.currentFrame.toNat ++ be2 (s.lead n)
    if s.lead n = 0 ∨ 32767 < s.lead n then some (.answer .late data)
    else if 1024 < s.lead n then some (.answer .far data)
    else none

/-- The lead a commit's OK carries; 0 for NEXT (R195). -/
def State.leadOf (s : State) (t : Target) : Nat :=
  match t with
  | .next => 0
  | .atFrame n => s.lead n

/-- SET_COMMIT: the checks of R48 and R49 in order, then the open set becomes the scheduled set (R51). -/
def State.takeSetCommit (s : State) (p : List Byte) : State × Reply :=
  match firstBad (setCommitChecks p) with
  | some pos => (s, badValue pos)
  | none =>
    match s.cset.scheduled with
    | some waiting => (s, .answer .pending waiting.target.bytes)
    | none =>
      if s.cset.openSet = [] then (s, .answer .setEmpty [])
      else
        match s.targetRefusal (targetOf p) with
        | some refusal => (s, refusal)
        | none =>
          match projectionRefusal s.store s.projection with
          | some refusal => (s, refusal)
          | none =>
            ({ s with cset := { s.cset with
                openSet := []
                scheduled := some { edits := s.cset.openSet, target := targetOf p } } },
             .answer .ok (setCounts s.cset.openSet ++ (targetOf p).bytes ++ be2 (s.leadOf (targetOf p))))

/-- SET_DISCARD (R60). -/
def State.takeSetDiscard (s : State) (_p : List Byte) : State × Reply :=
  if s.cset.openSet = [] then (s, .answer .setEmpty [])
  else
    ({ s with store := s.store.releaseStaged s.cset.openSet, cset := { s.cset with openSet := [] } },
     .answer .ok (setCounts s.cset.openSet))

/-- SET_WITHDRAW (R61). -/
def State.takeSetWithdraw (s : State) (_p : List Byte) : State × Reply :=
  match s.cset.scheduled with
  | some waiting =>
    ({ s with store := s.store.releaseStaged waiting.edits, cset := { s.cset with scheduled := none } },
     .answer .ok (waiting.target.bytes ++ [byte waiting.edits.length]))
  | none => (s, .answer .noneScheduled (presentBe2 s.cset.lastApp))

/-! ### Application (R54 to R58) -/

/-- A target is reached or passed at a head numbered `f` (R54; 00_scope.md, Frame numbers). -/
def Target.due (t : Target) (f : FrameNo) : Bool :=
  match t with
  | .next => true
  | .atFrame n => (f - n).toNat < 32768

/-- The active moves of an application, one window at a time in ascending index (R56, R86). -/
def State.activeMoves (s : State) (f : FrameNo) (before after : List (Option Nat)) : State :=
  (before.zip after).foldl (fun s m => s.activeMove f m.1 m.2) s

/-- APPLIED, and for a late application LATE_APPLY's flag and notice (R57). -/
def State.reportApplied (s : State) (f : FrameNo) (set : Scheduled) : State :=
  let s := s.offerNotice .applied (be2 f.toNat ++ set.target.bytes ++ [byte set.edits.length])
  match set.target with
  | .next => s
  | .atFrame n =>
    if f = n then s
    else (s.raise .lateApply).offerNotice .lateApply (be2 n.toNat ++ be2 f.toNat)

/-- The application of a set at a head numbered `f`, step by step (R55). -/
def State.applySet (s : State) (f : FrameNo) (set : Scheduled) : State :=
  let before := s.comp.wins.map (·.segment)
  let s := { s with comp := s.comp.apply set.edits }
  let after := s.comp.wins.map (·.segment)
  let s := { s with store := s.store.releaseStaged set.edits }
  let s := s.activeMoves f before after
  let s := { s with cset := { s.cset with scheduled := none, lastApp := some f } }
  s.reportApplied f set

/-- The scheduled set that is applied at the head just produced: due there, and the part not RESETTING (R54, R58). -/
def State.dueSet (s : State) : Option (FrameNo × Scheduled) :=
  match s.headOpen, s.status.resetting, s.timing.frame, s.cset.scheduled with
  | true, none, some f, some set => if set.target.due f then some (f, set) else none
  | _, _, _, _ => none

/-- The Change-Set Unit's part of the open head: a due set is applied (R55). -/
def State.applyDue (s : State) : State :=
  match s.dueSet with
  | some (f, set) => s.applySet f set
  | none => s

end Sys2Proof.Machine
end

