-- ==== Sys2Proof/Machine/Status.lean ====
section
/-! DEFINITION. Machine/Status.lean: the Status Unit (chapter 9): the status record, the parameters, and PART_RESET from
its taking to its effect on every block. -/

namespace Sys2Proof.Machine

/-! ### QUERY_STATUS (R181, section 11.8) -/

/-- The recorded geometry with its presence byte. -/
def geometryBytes (g : Option FrameShape) : List Byte :=
  match g with
  | some sh => 1 :: (be2 sh.geometry.width ++ be2 sh.geometry.activeLines ++ be2 sh.geometry.totalLines)
  | none => List.replicate 7 0

/-- Scheduled set present, its target kind and n. -/
def scheduledBytes (o : Option Scheduled) : List Byte :=
  match o with
  | some set => 1 :: set.target.bytes
  | none => [0, 0, 0, 0]

/-- The status record as it stands (R181). -/
def State.statusRecord (s : State) : List Byte :=
  be2 Config.vendorCode ++ be2 Config.partCode ++ [byte Config.revision, byte s.status.address.toNat,
    byte s.timing.lock.code]
  ++ geometryBytes s.timing.recorded
  ++ presentBe2 s.timing.frame
  ++ [byte s.timing.faultCount] ++ be2 s.timing.holdoverCount
  ++ setCounts s.cset.openSet
  ++ scheduledBytes s.cset.scheduled
  ++ presentBe2 s.cset.lastApp
  ++ be2 s.store.freeList.length ++ [byte s.store.dir.length, byte s.store.queue.length]
  ++ [byte s.chn.c0.state.code, byte s.chn.c1.state.code, byte s.chn.c2.state.code, byte s.chn.c3.state.code]
  ++ [byte s.chn.c0.last.toNat, byte s.chn.c1.last.toNat, byte s.chn.c2.last.toNat, byte s.chn.c3.last.toNat]
  ++ [byte s.pkt.filled.length, byte s.pkt.reserved.length]
  ++ [byte s.status.lastReset.scopeCode, byte s.status.lastReset.pathCode, byte s.status.flags.weights]

/-- QUERY_STATUS: the record before any clearing; with clear yes every flag it reports set is cleared (R180, R181). -/
def State.takeQueryStatus (s : State) (p : List Byte) : State × Reply :=
  match firstBad (queryStatusChecks p) with
  | some pos => (s, badValue pos)
  | none =>
    (if u1 p 0 = 1 then { s with status := { s.status with flags := Flags.clear } } else s,
     .answer .ok s.statusRecord)

/-! ### Parameters (R173, R185) -/

/-- PARAM_SET: all pairs checked, then all written in payload order (R185). -/
def State.takeParamSet (s : State) (p : List Byte) : State × Reply :=
  match firstBad (paramSetChecks p) with
  | some pos => (s, badValue pos)
  | none =>
    ({ s with status := { s.status with
        params := (paramPairs p).foldl (fun q pair => q.set pair.1 pair.2) s.status.params } },
     .answer .ok [byte (p.length / 3)])

/-- PARAM_QUERY: a pair for each identifier received, in order (R173). -/
def State.takeParamQuery (s : State) (p : List Byte) : State × Reply :=
  match firstBad (paramQueryChecks p) with
  | some pos => (s, badValue pos)
  | none => (s, .answer .ok (p.flatMap fun b => b :: be2 (s.status.params.get b.toNat)))

/-! ### PART_RESET (R187 to R189) -/

/-- PART_RESET taken: RESETTING becomes yes, and the OK is marked (R187). -/
def State.takePartReset (s : State) (p : List Byte) : State × Reply :=
  match ResetScope.ofNat? (u1 p 0) with
  | none => (s, badValue 0)
  | some scope => ({ s with status := { s.status with resetting := some scope } }, .marked [byte scope.code])

/-- The compositor at a PART_RESET's effect: records, phases, palettes and fill at reset values, nothing shown, the
latch unchanged (R21, R32). -/
def Compositor.softReset (c : Compositor) : Compositor := { Compositor.reset with latch := c.latch }

/-- The effect of an OVERLAY reset on every block (R189). -/
def State.overlayReset (s : State) (path : ResetPath) : State :=
  { s with
    comp := s.comp.softReset
    cset := ChangeSet.reset
    store := s.store.overlayReset
    status := { s.status with resetting := none, lastReset := .soft .overlay path } }

/-- The effect of a FULL reset on every block (R189): the response queue is emptied, its ranges kept (R139). -/
def State.fullReset (s : State) (path : ResetPath) : State :=
  { s with
    comp := s.comp.softReset
    cset := ChangeSet.reset
    store := s.store.fullReset
    pkt := { s.pkt with filled := [], reserved := [] }
    chn := ChannelUnit.reset
    status := { s.status with resetting := none, flags := Flags.clear, lastReset := .soft .full path } }

/-- The reset that is waiting takes effect with its scope; with none waiting nothing happens (R188, R189). -/
def State.resetEffect (s : State) (path : ResetPath) : State :=
  match s.status.resetting with
  | some .overlay => s.overlayReset path
  | some .full => s.fullReset path
  | none => s

/-- The reset's effect at an entry to NO_SIGNAL: the marked OK leaves the queue unemitted (R139, R188). -/
def State.resetAtNoSignal (s : State) : State :=
  match s.status.resetting with
  | some _ =>
    { s with pkt := { s.pkt with filled := s.pkt.filled.filter fun e => !e.marked } }.resetEffect .noSignal
  | none => s

end Sys2Proof.Machine
end

