-- ==== Sys2Proof/Machine/Packets.lean ====
section
/-! DEFINITION. Machine/Packets.lean: the Packet Unit's free lines (R132): which entry leaves, and what follows from its
emission. -/

namespace Sys2Proof.Machine

/-- The output produces lines: an output frame head has been produced since the last NO_SIGNAL (R107, R118). -/
def State.outputRuns (s : State) : Bool := s.timing.frame.isSome

/-- Where the output's lines come from now: the generator while it runs, else the input (R103, R117). -/
def State.lineSource (s : State) : LineSource := if s.timing.gen.isSome then .generator else .input

/-- The output word clock follows VIN_CLK while the output follows the input, and REF_CLK while the output is
generated or silent (R103). The result says whether it follows the input's clock. While the last inbound line of a third
faulted frame is still going out in HOLDOVER (R112), R103 names neither clock: it is REF_CLK, since the generator runs,
by the model's choice (log 28). -/
def State.voutFollowsInputClock (s : State) : Bool :=
  match s.link.vout with
  | .silent => false
  | .line _ => s.lineSource == .input

/-- A line begins at the output. -/
def State.putLine (s : State) (type : LineType) (data : List DataWord) (source : LineSource) (offset : Option Nat) :
    State :=
  { s with link := { s.link with
      vout := .line { type := type, data := data, source := source, offset := offset }, cut := false } }

/-- A free line of `width` words fixes its content: the oldest filled entry where it fits, which leaves the queue, or
empty-line content (R132). The emission of a marked entry is the event at which the reset takes effect (R188). -/
def State.fixFree (s : State) (width : Nat) : State × List DataWord :=
  match s.pkt.filled with
  | [] => (s, emptyLine width)
  | e :: rest =>
    if wordsFor e.packet ≤ width then
      let s' := { s with pkt := { s.pkt with filled := rest } }
      (if e.marked then s'.resetEffect .emission else s', packetLine e.packet width)
    else (s, emptyLine width)

/-- A free line is begun at the output with the content fixed for it. -/
def State.emitFree (s : State) (width : Nat) (source : LineSource) (offset : Option Nat) : State :=
  let (s', data) := s.fixFree width
  s'.putLine .blank data source offset

end Sys2Proof.Machine
end

