-- ==== Sys2Proof/Machine/Channels.lean ====
section
/-! DEFINITION. Machine/Channels.lean: the Channel Unit (chapter 7): fragments, assemblies, completion, the generic
checks and dispatch, RESYNC, and assembly timeouts. -/

namespace Sys2Proof.Machine

/-! ### Refusals the Channel Unit answers itself (R156) -/

/-- A refusal of a fragment: an unreserved packet with the fragment's channel, sequence and kind byte (R156). -/
def State.refuseFragment (s : State) (f : Fragment) (code : Code) (payload : List Byte) : State :=
  s.offer (s.packet f.ch f.seq f.kind code payload)

/-- The channel returns to IDLE and any assembly is gone; its sequence and cache stay (R147). -/
def State.dropAssembly (s : State) (ch : Chan) : State :=
  s.setChan ch { s.chan ch with state := .idle, assembly := none }

/-! ### Dispatch of an accepted message (R151) -/

/-- The owner's work on an accepted message: its checks, its effect, and its reply. RESYNC never comes here (R155). -/
def State.dispatch (s : State) (k : Kind) (ch : Chan) (p : List Byte) : State × Reply :=
  match k with
  | .winStage => s.takeWinStage p
  | .winPlace => s.takeWinPlace p
  | .winShow => s.takeWinShow p
  | .palStage => s.takePalStage p
  | .fillStage => s.takeFillStage p
  | .setCommit => s.takeSetCommit p
  | .setDiscard => s.takeSetDiscard p
  | .setWithdraw => s.takeSetWithdraw p
  | .segCreate => s.takeSegCreate p
  | .segWrite => s.takeSegWrite ch p
  | .segClose => s.takeSegClose ch p
  | .segDelete => s.takeSegDelete p
  | .queryStatus => s.takeQueryStatus p
  | .queryWindow => s.takeQueryWindow p
  | .queryPalette => s.takeQueryPalette p
  | .querySegment => s.takeQuerySegment p
  | .queryDirectory => s.takeQueryDirectory p
  | .paramSet => s.takeParamSet p
  | .paramQuery => s.takeParamQuery p
  | .partReset => s.takePartReset p
  | .resync => (s, .answer .ok [])

/-- The owner's reply carried out: an answer fills the reservation and is cached; a queued operation puts the channel
in EXECUTING; PART_RESET's OK is filled marked (R151, R152, R187). -/
def State.carryOut (s : State) (ch : Chan) (seq : SeqNo) (kind : Byte) (reply : Reply) : State :=
  match reply with
  | .answer code payload => s.answerWith ch seq kind code payload false
  | .queued => s.setChan ch { s.chan ch with state := .executing }
  | .marked payload => s.answerWith ch seq kind .ok payload true

/-! ### Completion and the generic checks (R149, R150) -/

/-- The first generic check that fails: its code and data (R150, R164, R165). -/
def State.genericRefusal (s : State) (kind : Byte) (ch : Chan) (p : List Byte) : Option (Code × List Byte) :=
  match Kind.ofCode? kind with
  | none => some (.badKind, [kind])
  | some k =>
    if !k.onChannel ch then some (.wrongChannel, [byte ch.val, byte k.channelWeights])
    else if !k.lengthAllowed p then some (.badLength, be2 p.length ++ be2 (k.requiredLength p).toNat)
    else if s.status.resetting.isSome then some (.resetting, [])
    else none

/-- The last sequence advances. -/
def State.advance (s : State) (ch : Chan) (seq : SeqNo) : State :=
  s.setChan ch { s.chan ch with last := seq }

/-- A message that holds its reservation meets the generic checks and, if it passes, its owner (R150, R151). A refusal
advances the sequence and is cached only while the part is not RESETTING. -/
def State.judge (s : State) (ch : Chan) (seq : SeqNo) (kind : Byte) (p : List Byte) : State :=
  match s.genericRefusal kind ch p with
  | some (code, data) =>
    if s.status.resetting.isSome then s.fillReserved ch (s.packet ch seq kind code data) false
    else (s.advance ch seq).answerWith ch seq kind code data false
  | none =>
    match Kind.ofCode? kind with
    | some k =>
      let (s', reply) := (s.advance ch seq).dispatch k ch p
      s'.carryOut ch seq kind reply
    | none => s

/-- A complete message: the channel is IDLE without an assembly, and a reservation is asked for; without room the
message is dropped unexecuted with RESPONSE_DROPPED (R149). -/
def State.complete (s : State) (ch : Chan) (seq : SeqNo) (kind : Byte) (p : List Byte) : State :=
  let s := s.dropAssembly ch
  if s.pkt.room then (s.reserve ch).judge ch seq kind p else s.raise .responseDropped

/-! ### Fragments by channel state (R143 to R147, R153, R154) -/

/-- A duplicate of the last message: its LAST fragment re-queues the cached response, if there is one and the queue
has room (R144). -/
def State.duplicate (s : State) (f : Fragment) : State :=
  match f.last, (s.chan f.ch).cache with
  | true, some packet => s.offer packet
  | _, _ => s

/-- An out-of-sequence fragment: a bulk channel halts and is answered SEQUENCE; channel 0 answers index 0 only
(R145). -/
def State.outOfSequence (s : State) (f : Fragment) : State :=
  let expected := (s.chan f.ch).last + 1
  let data := fun (halted : Bool) => [f.seq.setWidth 8, expected.setWidth 8, boolByte halted]
  if f.ch = 0 then
    if f.index = 0 then s.refuseFragment f .sequence (data false) else s
  else
    (s.setChan f.ch { s.chan f.ch with state := .halted }).refuseFragment f .sequence (data true)

/-- The size check of a fragment that would begin or join an assembly (R146). -/
def Fragment.badSize (f : Fragment) : Bool :=
  !f.last && (f.payload.length != Config.fragmentBytes || f.index == 7)

/-- A fragment that fails the size check: the assembly is dropped and FRAGMENT_SIZE answered (R146). -/
def State.refuseSize (s : State) (f : Fragment) : State :=
  (s.dropAssembly f.ch).refuseFragment f .fragmentSize (byte f.index :: be2 f.payload.length)

/-- A channel in IDLE (R143). -/
def State.idleFragment (s : State) (f : Fragment) : State :=
  let r := s.chan f.ch
  if f.seq = r.last then s.duplicate f
  else if f.seq = r.last + 1 then
    if f.index = 0 then
      if f.last then s.complete f.ch f.seq f.kind f.payload
      else if f.badSize then s.refuseSize f
      else s.setChan f.ch { r with
        state := .assembling, assembly := some { seq := f.seq, kind := f.kind, frags := [f.payload], heads := 0 } }
    else s
  else s.outOfSequence f

/-- A channel in ASSEMBLING, with its assembly (R147). The index expected is the number of payloads held. -/
def State.assemblingFragment (s : State) (f : Fragment) (a : Assembly) : State :=
  if f.seq = a.seq then
    if f.index = a.frags.length then
      if f.badSize then s.refuseSize f
      else if f.last then s.complete f.ch a.seq a.kind (a.frags ++ [f.payload]).flatten
      else s.setChan f.ch { s.chan f.ch with assembly := some { a with frags := a.frags ++ [f.payload] } }
    else if f.index < a.frags.length then s
    else (s.dropAssembly f.ch).refuseFragment f .fragmentGap
      [f.seq.setWidth 8, byte a.frags.length, byte f.index]
  else (s.dropAssembly f.ch).idleFragment f

/-- A channel in EXECUTING (R153). -/
def State.executingFragment (s : State) (f : Fragment) : State :=
  let r := s.chan f.ch
  if f.seq = r.last then s
  else if f.last then s.refuseFragment f .busy [r.last.setWidth 8]
  else s

/-- A channel in HALTED (R154). -/
def State.haltedFragment (s : State) (f : Fragment) : State :=
  if f.last then s.refuseFragment f .halted [(s.chan f.ch).last.setWidth 8] else s

/-- Fragments an assembly holds. -/
def ChanRec.fragsHeld (r : ChanRec) : Nat := (r.assembly.map (·.frags.length)).getD 0

/-- A RESYNC that holds its reservation: refused by the generic checks with the record unchanged, or taken (R155). -/
def State.judgeResync (s : State) (f : Fragment) : State :=
  match s.genericRefusal f.kind f.ch f.payload with
  | some (code, data) => s.fillReserved f.ch (s.packet f.ch f.seq f.kind code data) false
  | none =>
    let r := s.chan f.ch
    let s := s.setChan f.ch { r with state := .idle, last := f.seq, assembly := none }
    s.answerWith f.ch f.seq f.kind .ok [byte r.state.code, byte r.fragsHeld] false

/-- A fragment of kind RESYNC (R155). -/
def State.resyncFragment (s : State) (f : Fragment) : State :=
  if f.index ≠ 0 ∨ f.last = false then s
  else if (s.chan f.ch).state = .executing then s.refuseFragment f .busy [(s.chan f.ch).last.setWidth 8]
  else if s.pkt.room then (s.reserve f.ch).judgeResync f
  else s.raise .responseDropped

/-- A fragment reaches the record of its channel (R142). -/
def State.fragment (s : State) (f : Fragment) : State :=
  if f.kind = Kind.resync.code then s.resyncFragment f
  else
    match (s.chan f.ch).state, (s.chan f.ch).assembly with
    | .assembling, some a => s.assemblingFragment f a
    | .executing, _ => s.executingFragment f
    | .halted, _ => s.haltedFragment f
    | _, _ => s.idleFragment f

/-! ### A whole message (R162; log 1) -/

/-- A payload cut into its fragments: (index, LAST, payload), each full but the last (R146). -/
def cutPayload : Nat → Nat → List Byte → List (Nat × Bool × List Byte)
  | 0, _, _ => []
  | fuel + 1, i, p =>
    if p.length ≤ Config.fragmentBytes then [(i, true, p)]
    else (i, false, p.take Config.fragmentBytes) :: cutPayload fuel (i + 1) (p.drop Config.fragmentBytes)

/-- The fragments of a message of a kind, at most eight (R146). -/
def fragmentsOf (k : Kind) (ch : Chan) (seq : SeqNo) (p : List Byte) : List Fragment :=
  (cutPayload 8 0 p).map fun (i, last, part) =>
    { ch := ch, index := i, last := last, seq := seq, kind := k.code, payload := part }

/-- Inbound management lines reach the Packet Unit: ACQUIRING, LOCKED or REJOINING (R99), after the first output frame
head (R107). -/
def State.takesLines (s : State) : Bool :=
  match s.timing.lock with
  | .acquiring => s.outputRuns
  | .locked => s.outputRuns
  | .rejoining => s.outputRuns
  | .noSignal => false
  | .holdover => false

/-- A whole message reaches the Channel Unit, fragment by fragment in index order; where no inbound management line is
handed on, none does (R133, R158; log 3). -/
def State.receive (s : State) (k : Kind) (ch : Chan) (seq : SeqNo) (p : List Byte) : State :=
  if s.takesLines then (fragmentsOf k ch seq p).foldl State.fragment s else s

/-! ### Assembly timeouts (R148) -/

/-- An output frame head counts towards the assembly of a channel. -/
def ChanRec.countHead (r : ChanRec) : ChanRec :=
  { r with assembly := r.assembly.map fun a => { a with heads := a.heads + 1 } }

/-- One channel's assembly times out if its head count has reached ASSEMBLY_TIMEOUT (R148). -/
def State.timeOut (s : State) (ch : Chan) : State :=
  match (s.chan ch).assembly with
  | some a =>
    if s.status.params.assemblyTimeout ≤ a.heads then
      ((s.dropAssembly ch).raise .assemblyTimeout).offerNotice .assemblyTimeout
        [byte ch.val, a.seq.setWidth 8, byte a.frags.length]
    else s
  | none => s

/-- The assemblies of every channel, in ascending channel order (R184). -/
def State.timeOutAll (s : State) : State :=
  [0, 1, 2, 3].foldl State.timeOut s

/-- The rest of an open output frame head: the application of a due set, then the assembly timeouts (R55, R148, R184;
log 2). With no head open nothing is left to do. -/
def State.settle (s : State) : State :=
  if s.headOpen then { s.applyDue.timeOutAll with headOpen := false } else s

end Sys2Proof.Machine
end

