-- ==== Sys2Proof/Machine/Timing.lean ====
section
/-! DEFINITION. Machine/Timing.lean: the Timing Unit and the lines that pass or are generated (chapter 5; the outbound
management lines of section 6.5): frame judgement, lock states, output frame heads, generator. -/

namespace Sys2Proof.Machine

/-! ### Intervals (R105, R106) -/

/-- The line period in force, as REF_CLK periods over lines: an exact fraction (R105). -/
def State.linePeriod (s : State) : Nat × Nat :=
  let own := match s.timing.recorded with
    | some sh => (sh.period, sh.geometry.totalLines)
    | none => (4096, 1)
  match s.timing.lock, s.timing.candidate with
  | .acquiring, some sh => (sh.period, sh.geometry.totalLines)
  | .rejoining, some sh => (sh.period, sh.geometry.totalLines)
  | .acquiring, none => (4096, 1)
  | _, _ => own

/-- The absence timer's interval now: LOSS_INTERVAL line periods rounded down, but 16,384 REF_CLK periods in ACQUIRING
with no candidate (R105, R106). -/
def State.absenceInterval (s : State) : Nat :=
  match s.timing.lock, s.timing.candidate with
  | .acquiring, none => 4 * 4096
  | _, _ => s.status.params.lossInterval * s.linePeriod.1 / s.linePeriod.2

/-- Line `k` of a generated frame begins floor(k x P / T) REF_CLK periods after the frame's head (R114). -/
def FrameShape.lineOffset (sh : FrameShape) (k : Nat) : Nat := k * sh.period / sh.geometry.totalLines

/-! ### Lock state changes (R118, R120) -/

/-- LOCK_CHANGE is set and LOCK_STATE offered: state left, state entered, cause, current frame number (R120). -/
def State.reportLock (s : State) (left entered : LockState) (cause : LockCause) : State :=
  (s.raise .lockChange).offerNotice .lockState
    ([byte left.code, byte entered.code, byte cause.code]
      ++ presentBe2 (if entered = .noSignal then none else s.timing.frame))

/-- Entry to NO_SIGNAL: the output falls silent, the Timing Unit's items take their values of R104, a waiting reset
takes effect, and then the change is reported (R118). -/
def State.enterNoSignal (s : State) (cause : LockCause) : State :=
  let left := s.timing.lock
  let cut := match s.link.vout with
    | .silent => false
    | .line _ => true
  let s := { s with timing := Timing.reset
                    link := { s.link with inFrame := none, vout := .silent, cut := cut }
                    comp := s.comp.hideAll }
  s.resetAtNoSignal.reportLock left .noSignal cause

/-- A lock state entered whose own items are set already, with its report. -/
def State.enter (s : State) (timing : Timing) (cause : LockCause) : State :=
  { s with timing := timing }.reportLock s.timing.lock timing.lock cause

/-- NO_SIGNAL to ACQUIRING at a FRAME_HEAD marker (R107). -/
def State.enterAcquiring (s : State) : State :=
  s.enter { Timing.reset with lock := .acquiring, absence := true } .input

/-- HOLDOVER to REJOINING at a FRAME_HEAD marker (R116). -/
def State.enterRejoining (s : State) : State :=
  s.enter { s.timing with lock := .rejoining, candidate := none, matchCount := 0, absence := true } .input

/-- The match count has reached 2: the candidate becomes the recorded shape and the part is LOCKED (R109, R117). -/
def State.enterLocked (s : State) : State :=
  s.enter { s.timing with
    lock := .locked, recorded := s.timing.candidate, candidate := none, matchCount := 0, faultCount := 0,
    holdoverCount := 0 } .matched

/-- LOCKED is left by faults or absence: to NO_SIGNAL where HOLDOVER_LIMIT is 0, else to HOLDOVER with the generator
given (R112, R113). -/
def State.leaveLocked (s : State) (cause : LockCause) (gen : Option Generator) : State :=
  if s.status.params.holdoverLimit = 0 then s.enterNoSignal cause
  else
    { s with link := { s.link with inFrame := none } }.enter
      { s.timing with lock := .holdover, holdoverCount := 0, absence := false, gen := gen } cause

/-- REJOINING is left by absence (R117). -/
def State.leaveRejoining (s : State) : State :=
  if s.status.params.holdoverLimit = 0 then s.enterNoSignal .absence
  else
    { s with link := { s.link with inFrame := none } }.enter
      { s.timing with lock := .holdover, candidate := none, matchCount := 0, absence := false } .absence

/-! ### Judging a frame (R100 to R102, R108, R111) -/

/-- The common width of the frame's lines, if there is one (R100). -/
def InFrame.width? (fr : InFrame) : Option Nat :=
  match fr.lines with
  | [] => none
  | l :: ls => if ls.all fun m => m.2 == l.2 then some l.2 else none

/-- The number of ACTIVE lines (R100). -/
def InFrame.activeCount (fr : InFrame) : Nat := (fr.lines.filter fun l => l.1 == .active).length

/-- Every line has a known type, and only line 0 is FRAME_HEAD (R101). -/
def InFrame.typesOk (fr : InFrame) : Bool :=
  match fr.lines with
  | [] => false
  | l :: ls => l.1 == .frameHead && ls.all fun m => m.1 == .blank || m.1 == .active

/-- Every position of a management range exists in the frame and holds a BLANK line (R101). -/
def InFrame.rangeBlank (fr : InFrame) (r : MgmtRange) : Bool :=
  (List.range r.count).all fun i => (fr.lines[r.first + i]?).any fun l => l.1 == .blank

/-- The shape of a completed frame, where the frame is valid (R100, R101). -/
def InFrame.shape? (fr : InFrame) (r : MgmtRange) (duration : Nat) : Option FrameShape :=
  match fr.width? with
  | none => none
  | some w =>
    if !fr.headless && fr.decodable && (720 ≤ w && w ≤ 4096) && (16 ≤ fr.activeCount && fr.activeCount ≤ 4096)
        && fr.lines.length ≤ Config.maxLines && fr.typesOk && fr.rangeBlank r then
      some { geometry := { width := w, activeLines := fr.activeCount, totalLines := fr.lines.length }
             pattern := fr.lines.map (·.1)
             period := duration }
    else none

/-- Two frames have equal geometries (R100). -/
def sameGeometry (a b : Option FrameShape) : Bool :=
  match a, b with
  | some x, some y => x.geometry == y.geometry
  | _, _ => false

/-- The match count after a frame assessed in ACQUIRING or REJOINING (R108). -/
def State.matchAfter (s : State) (shape : Option FrameShape) : Nat :=
  match shape with
  | none => 0
  | some _ => if sameGeometry s.timing.candidate shape then s.timing.matchCount + 1 else 1

/-- A frame assessed in ACQUIRING or REJOINING (R108); at match count 2 the part locks (R109, R117). -/
def State.assess (s : State) (shape : Option FrameShape) : State :=
  let count := s.matchAfter shape
  let s := { s with timing := { s.timing with candidate := shape, matchCount := count } }
  if 2 ≤ count then s.enterLocked else s

/-- A frame judged in LOCKED: good or faulted (R102, R111); the third faulted frame ends the lock, and the generator
starts with a frame head (R112). -/
def State.judgeLocked (s : State) (shape : Option FrameShape) : State :=
  if sameGeometry s.timing.recorded shape then
    { s with timing := { s.timing with faultCount := 0, recorded := shape } }
  else
    let s := { s with timing := { s.timing with faultCount := s.timing.faultCount + 1 } }.raise .geometryFault
    if 3 ≤ s.timing.faultCount then
      s.leaveLocked .fault (s.timing.recorded.map fun sh => { shape := sh, next := 0, ownHead := true })
    else s

/-- A completed inbound frame judged in the state at hand; `shape` is none for an invalid one. -/
def State.judgeFrame (s : State) (shape : Option FrameShape) : State :=
  match s.timing.lock with
  | .acquiring => s.assess shape
  | .rejoining => s.assess shape
  | .locked => s.judgeLocked shape
  | .noSignal => s
  | .holdover => s

/-! ### The output frame head (R119) -/

/-- An output frame head numbered `f`, produced in the present lock state: the compositor latches and decides, the
outbound range is fixed, assemblies count the head; its application and timeouts are then due (R16, R18, R19, R124,
R148; log 2). -/
def State.atOutputHead (s : State) (f : FrameNo) : State :=
  { s with
    timing := { s.timing with frame := some f }
    link := { s.link with nextY := 0 }
    comp := s.comp.atHead s.timing.lock
    pkt := { s.pkt with outRange := s.status.params.range }
    chn := s.chn.map ChanRec.countHead
    headOpen := true }

/-- The number one above the current one; 0 with none (R97, R114). -/
def State.nextFrame (s : State) : FrameNo :=
  match s.timing.frame with
  | some c => c + 1
  | none => 0

/-! ### Inbound lines (R103, R127, R128, R131) -/

/-- A FRAME_HEAD line is complete and emitted: the output frame head. A generated line still in progress at a relock
ends there, and the generator stops (R103, R117). -/
def State.relayHead (s : State) (data : List DataWord) : State :=
  let f := (frameNumber? data).getD s.nextFrame
  let cut := s.timing.gen.isSome
  let s := s.putLine .frameHead (withFrameNumber f data) .input none
  let s := { s with link := { s.link with cut := cut }, timing := { s.timing with gen := none } }
  s.atOutputHead f

/-- The fragment that a disposition hands to the Channel Unit (R127). -/
def Disposition.fragment? : Disposition → Option Fragment
  | .free => none
  | .forwarded => none
  | .consumed f => some f
  | .broadcast f => some f

/-- The Packet Unit examines an inbound management line: the PACKET_CRC flag (R126). -/
def State.flagPacket (s : State) (bytes : List Byte) : State :=
  if packetFails bytes then s.raise .packetCrc else s

/-- The outbound content of an inbound management line, inside the outbound range or not (R131). -/
def State.relayManaged (s : State) (d : Disposition) (outside : Bool) (data : List DataWord) : State :=
  match d, outside with
  | .free, false => s.emitFree data.length .input none
  | .consumed _, false => s.emitFree data.length .input none
  | .consumed _, true => s.putLine .blank (emptyLine data.length) .input none
  | .free, true => s.putLine .blank data .input none
  | .forwarded, _ => s.putLine .blank data .input none
  | .broadcast _, _ => s.putLine .blank data .input none

/-- A BLANK line is complete in ACQUIRING or LOCKED: a management line gets its disposition and content, any other
passes unchanged (R103, R131). The content is fixed before the packet is handed on (R128). -/
def State.relayBlank (s : State) (fr : InFrame) (pos : Nat) (data : List DataWord) : State × Option Fragment :=
  if !fr.headless && s.pkt.inRange.holds pos then
    let bytes := packetStream data
    let d := disposition s.status.address bytes
    ((s.flagPacket bytes).relayManaged d (!s.pkt.outRange.holds pos) data, d.fragment?)
  else (s.putLine .blank data .input none, none)

/-- An ACTIVE line is complete: composed in a composed frame, unchanged in a frame latched ACQUIRING and in a headless
one (R103, R9). -/
def State.relayActive (s : State) (fr : InFrame) (data : List DataWord) : State :=
  if fr.headless then s.putLine .active data .input none
  else
    let s' := if s.comp.latch.composed then s.putLine .active (s.composeLine s.link.nextY data) .input none
      else s.putLine .active data .input none
    { s' with link := { s'.link with nextY := s.link.nextY + 1 } }

/-- A line complete in ACQUIRING or LOCKED is emitted whole (R103). -/
def State.relay (s : State) (fr : InFrame) (data : List DataWord) : State × Option Fragment :=
  match fr.openType with
  | .frameHead => (s.relayHead data, none)
  | .blank => s.relayBlank fr fr.lines.length data
  | .active => (s.relayActive fr data, none)
  | .unknown w => (s.putLine (.unknown w) data .input none, none)

/-- A line complete in REJOINING is not emitted; a management line is examined (R117, R133). -/
def State.examineOnly (s : State) (fr : InFrame) (data : List DataWord) : State × Option Fragment :=
  if !fr.headless && fr.openType == .blank && s.pkt.inRange.holds fr.lines.length then
    let bytes := packetStream data
    (s.flagPacket bytes, (disposition s.status.address bytes).fragment?)
  else (s, none)

/-- The frame with its open line complete. -/
def InFrame.withLine (fr : InFrame) (data : List DataWord) : InFrame :=
  { fr with
    lines := fr.lines ++ [(fr.openType, data.length)]
    decodable := fr.decodable || (fr.openType == .frameHead && (frameNumber? data).isSome) }

/-- A marker completes the open line, whose data words are `data`: the line is recorded, and relayed or examined
(R96, R103). The packet it hands on is answered with the state. -/
def State.completeLine (s : State) (data : List DataWord) : State × Option Fragment :=
  match s.link.inFrame with
  | none => (s, none)
  | some fr =>
    let s' := { s with link := { s.link with inFrame := some (fr.withLine data) } }
    match s.timing.lock with
    | .acquiring => s'.relay fr data
    | .locked => s'.relay fr data
    | .rejoining => s'.examineOnly fr data
    | .noSignal => (s, none)
    | .holdover => (s, none)

/-- The packet of a completed line, where it holds one for this part, is handed to the Channel Unit (R128). -/
def State.handOn (s : State) (f : Option Fragment) : State :=
  match f with
  | some f => s.fragment f
  | none => s

/-- A marker other than FRAME_HEAD opens the next line; the 4201st marker of a frame judges the frame and begins a
headless one (R97; log 6). -/
def State.openLine (s : State) (typeWord : Lane) (refClks : Nat) : State :=
  match s.link.inFrame with
  | none => s
  | some fr =>
    if Config.maxLines ≤ fr.lines.length then
      let s := s.judgeFrame none
      if s.link.inFrame.isSome then
        { s with link := { s.link with
          inFrame := some { headless := true, lines := [], openType := LineType.ofWord typeWord, decodable := false,
                            refClks := 0 } } }
      else s
    else
      { s with link := { s.link with
        inFrame := some { fr with openType := LineType.ofWord typeWord, refClks := fr.refClks + refClks } } }

/-- The frame that an input frame head begins, with the inbound range fixed for it (R97, R99, R124). In HOLDOVER and
NO_SIGNAL no frame is followed. -/
def State.beginFrame (s : State) : State :=
  let frame : InFrame := { headless := false, lines := [], openType := .frameHead, decodable := false, refClks := 0 }
  let followed := match s.timing.lock with
    | .acquiring => some frame
    | .locked => some frame
    | .rejoining => some frame
    | .noSignal => none
    | .holdover => none
  { s with link := { s.link with inFrame := followed }, pkt := { s.pkt with inRange := s.status.params.range } }

/-- The shape of the frame that an input frame head ends, where the frame is valid: its open line has these data words
(R97, R101). -/
def State.endedShape (s : State) (data : List DataWord) (refClks : Nat) : Option FrameShape :=
  s.link.inFrame.bind fun fr => (fr.withLine data).shape? s.pkt.inRange (fr.refClks + refClks)

/-- The input frame head that ends a frame with these data words brings the match count to 2 in ACQUIRING (R109). -/
def State.locksAtHead (s : State) (data : List DataWord) (refClks : Nat) : Bool :=
  s.timing.lock == .acquiring && decide (2 ≤ s.matchAfter (s.endedShape data refClks))

/-- An input frame head judges the frame before it and begins the next (R97, R108, R111). -/
def State.takeHead (s : State) (refClks : Nat) : State :=
  match s.link.inFrame with
  | some fr => (s.judgeFrame (fr.shape? s.pkt.inRange (fr.refClks + refClks))).beginFrame
  | none => s.beginFrame

/-! ### The generator (R114, R115) -/

/-- The holdover count after one more generated head; it stops at 65535 (R115). -/
def Timing.raisedHoldover (t : Timing) : Nat := min 65535 (t.holdoverCount + 1)

/-- The limit is reached at a generated head that brings the count to `count` (R115). -/
def limitReached (limit count : Nat) : Bool := limit == 0 || (limit ≤ 65534 && limit ≤ count)

/-- The generator's next line is a frame head that it may produce: in HOLDOVER or REJOINING, at the end of a frame
(R114, R117). -/
def State.headIsNext (s : State) : Bool :=
  (s.timing.lock == .holdover || s.timing.lock == .rejoining) && s.timing.gen.any fun g => g.next == 0

/-- The position after `k` in a frame of `total` lines; 0 after the last. -/
def nextPosition (total k : Nat) : Nat := if k + 1 < total then k + 1 else 0

/-- A generated frame head is emitted, numbered one above the current number (R114). -/
def State.emitHead (s : State) (sh : FrameShape) : State :=
  let f := s.nextFrame
  let s := s.putLine .frameHead (withFrameNumber f (emptyLine sh.geometry.width)) .generator (some 0)
  let s := { s with timing := { s.timing with
    gen := some { shape := sh, next := nextPosition sh.geometry.totalLines 0, ownHead := true } } }
  s.atOutputHead f

/-- A generated frame head is due: the holdover count rises, and the head is emitted or the limit ends the output
(R115). -/
def State.generatorHead (s : State) : State :=
  let s := { s with timing := { s.timing with holdoverCount := s.timing.raisedHoldover } }
  if limitReached s.status.params.holdoverLimit s.timing.holdoverCount then s.enterNoSignal .limit
  else
    match s.timing.recorded with
    | some sh => s.emitHead sh
    | none => s

/-- Any other generated line, with the content of R114. -/
def State.generatorLine (s : State) (g : Generator) : State :=
  let width := g.shape.geometry.width
  let offset := if g.ownHead then some (g.shape.lineOffset g.next) else none
  let type := (g.shape.pattern[g.next]?).getD .blank
  let s := { s with timing := { s.timing with
    gen := some { g with next := nextPosition g.shape.geometry.totalLines g.next } } }
  match type with
  | .blank =>
    if s.pkt.outRange.holds g.next then s.emitFree width .generator offset
    else s.putLine .blank (emptyLine width) .generator offset
  | .active =>
    let s' := s.putLine .active (s.composeLine s.link.nextY (fillBase s.comp.fill width)) .generator offset
    { s' with link := { s'.link with nextY := s.link.nextY + 1 } }
  | .frameHead => s.putLine .frameHead (emptyLine width) .generator offset
  | .unknown w => s.putLine (.unknown w) (emptyLine width) .generator offset

/-- The generator begins its next timed line (R114). -/
def State.generatorBegin (s : State) : State :=
  match s.timing.gen with
  | none => s
  | some g =>
    if g.next = 0 then (if s.headIsNext then s.generatorHead else s)
    else s.generatorLine g

/-- The generator that takes over at absence expiry in LOCKED (R113): it completes the frame in progress from the
position of the open line, or begins with a frame head where no position remains or no output frame is in progress.
Where a relocked frame's head is still open, the generated frame in progress goes on (log 12, log 13). -/
def State.takeoverGen (s : State) : Option Generator :=
  match s.timing.gen with
  | some g => some g
  | none =>
    s.timing.recorded.map fun sh =>
      match s.link.inFrame with
      | some fr =>
        if fr.headless || sh.geometry.totalLines ≤ fr.lines.length then { shape := sh, next := 0, ownHead := true }
        else { shape := sh, next := fr.lines.length, ownHead := false }
      | none => { shape := sh, next := 0, ownHead := true }

/-- Absence expiry, by the lock state (R110, R113, R117). -/
def State.absence (s : State) : State :=
  match s.timing.lock with
  | .acquiring => s.enterNoSignal .absence
  | .locked => s.leaveLocked .absence s.takeoverGen
  | .rejoining => s.leaveRejoining
  | .noSignal => s
  | .holdover => s

end Sys2Proof.Machine
end

