-- ==== Sys2Proof/Machine/Events.lean ====
section
/-! DEFINITION. Machine/Events.lean: the meanings of the rows that are events: of the RESET_N pin, the link, the
reference clock, an output frame head, a free line, and the store.

An event that cannot occur in the state at hand changes nothing but for the rest of an open frame head (log 2, log 4).
-/

namespace Sys2Proof.Machine

/-- What a step of the part answers. -/
abbrev Answer := Host.Outcome State Fault Refusal

/-- HARD_RESET (R191): every block at its hard-reset values, the straps sampled; only the commands waiting stay. -/
def execHardReset (strap : BitVec 5) (s : State) : Answer :=
  .next { State.afterHardReset strap with pending := s.pending }

/-- A FRAME_HEAD marker that locks an ACQUIRING part: the change to LOCKED comes first, then the last line of the frame
is emitted, uncomposed and with its content as the queue then stands (R109), and then its packet is handed on (R128),
before the range is fixed for the frame that begins, or after it where `headFirst` says so (R124; log 5). -/
def State.frameHeadLocking (s : State) (data : List DataWord) (refClks : Nat) (headFirst : Bool) : State :=
  let (s, f) := (s.judgeFrame (s.endedShape data refClks)).completeLine data
  if headFirst then s.beginFrame.handOn f else (s.handOn f).beginFrame

/-- Any other FRAME_HEAD marker in a state that follows the input: it completes the open line and judges the frame. The
packet that line carried is handed on before the head, or after it where `headFirst` says so and the state after the
head is still one in which messages are taken (R97, R124, R128; log 5). The outbound content of the line is fixed before
the head in either order: at a third faulted frame (R112), whether the line's emission or the change of lock state comes
first is the model's choice (log 26). At a relock in REJOINING the packet follows `headFirst` too: one handed on after
the head is taken in LOCKED with the last generated number still current, by the model's choice (R119, R192; log 5). -/
def State.frameHeadJudging (s : State) (data : List DataWord) (refClks : Nat) (headFirst : Bool) : State :=
  let (s, f) := s.completeLine data
  let s := s.settle
  let head := s.takeHead refClks
  if headFirst && head.takesLines then head.handOn f else (s.handOn f).takeHead refClks

/-- A FRAME_HEAD marker in a state that follows the input. -/
def State.frameHeadFollowed (s : State) (data : List DataWord) (refClks : Nat) (headFirst : Bool) : State :=
  if s.locksAtHead data refClks then s.frameHeadLocking data refClks headFirst
  else s.frameHeadJudging data refClks headFirst

/-- A FRAME_HEAD marker (R97, R107, R116). -/
def State.frameHeadMarker (s : State) (data : List DataWord) (refClks : Nat) (headFirst : Bool) : State :=
  match s.timing.lock with
  | .noSignal => s.enterAcquiring.beginFrame
  | .holdover => s.enterRejoining.beginFrame
  | .acquiring => s.frameHeadFollowed data refClks headFirst
  | .locked => s.frameHeadFollowed data refClks headFirst
  | .rejoining => s.frameHeadFollowed data refClks headFirst

/-- Any other marker in a state that follows the input: the open line is complete, its packet handed on, and the next
line opened (R96). Where that marker ends the third faulted frame, the line's emission comes first (log 26). -/
def State.markerFollowed (s : State) (typeWord : Lane) (data : List DataWord) (refClks : Nat) : State :=
  let (s, f) := s.completeLine data
  (s.handOn f).openLine typeWord refClks

/-- A marker with this type word. One whose type word is FRAME_HEAD's is an input frame head (log 16); in NO_SIGNAL and
HOLDOVER any other has no effect (R107, R116). -/
def State.marker (s : State) (typeWord : Lane) (data : List DataWord) (refClks : Nat) : State :=
  if typeWord = LineType.frameHead.word then s.frameHeadMarker data refClks false
  else
    match s.timing.lock with
    | .noSignal => s
    | .holdover => s
    | .acquiring => s.markerFollowed typeWord data refClks
    | .locked => s.markerFollowed typeWord data refClks
    | .rejoining => s.markerFollowed typeWord data refClks

/-- LINE_MARKER (R96). -/
def execLineMarker (typeWord : Lane) (data : List DataWord) (refClks : Nat) (s : State) : Answer :=
  .next (s.settle.marker typeWord data refClks)

/-- INPUT_FRAME_HEAD (R97). -/
def execInputFrameHead (data : List DataWord) (refClks : Nat) (headFirst : Bool) (s : State) : Answer :=
  .next (s.settle.frameHeadMarker data refClks headFirst)

/-- ABSENCE_EXPIRY (R106): it occurs when the timer runs and its interval has passed since the last marker. -/
def execAbsenceExpiry (refClks : Nat) (s : State) : Answer :=
  let s := s.settle
  .next (if s.timing.absence && s.absenceInterval ≤ refClks then s.absence else s)

/-- GENERATOR_LINE_BEGIN (R114). -/
def execGeneratorLineBegin (s : State) : Answer := .next s.settle.generatorBegin

/-- HOLDOVER_LIMIT_REACHED (R115): a generated head is due and brings the count to the limit. -/
def execHoldoverLimitReached (s : State) : Answer :=
  let s := s.settle
  .next (if s.headIsNext && limitReached s.status.params.holdoverLimit s.timing.raisedHoldover then s.generatorHead
    else s)

/-- SET_APPLICATION (R55): the scheduled set due at the head just produced is applied. The head's assembly timeouts
come after it (R184). -/
def execSetApplication (s : State) : Answer := .next s.applyDue

/-- ASSEMBLY_TIMEOUT (R148): the assemblies whose count has reached ASSEMBLY_TIMEOUT at the head just produced time
out, after that head's application (R184). -/
def execAssemblyTimeout (s : State) : Answer := .next s.settle

/-- RESPONSE_EMISSION (R132): a free outbound line of `width` words takes its content, where the output produces
lines. -/
def execResponseEmission (width : Nat) (s : State) : Answer :=
  let s := s.settle
  .next (if s.outputRuns then s.emitFree width s.lineSource none else s)

/-- The operation at the head of the access queue completes, if it is a write (R77). -/
def State.writeCompletion (s : State) : State :=
  match s.store.queue with
  | .write id ch offset data :: _ => s.completeWrite id ch offset data
  | _ => s

/-- SEG_WRITE_COMPLETION (R77). -/
def execSegWriteCompletion (s : State) : Answer := .next s.settle.writeCompletion

/-- The operation at the head of the access queue completes, if it is a verify (R81). -/
def State.verifyCompletion (s : State) : State :=
  match s.store.queue with
  | .verify id ch carried :: _ => s.completeVerify id ch carried
  | _ => s

/-- VERIFY_COMPLETION (R81). -/
def execVerifyCompletion (s : State) : Answer := .next s.settle.verifyCompletion

/-- The marked OK is the oldest filled entry and a free line of `width` words is wide enough for it (R132, R188). -/
def State.markedFits (s : State) (width : Nat) : Bool :=
  s.pkt.filled.head?.any fun e => e.marked && wordsFor e.packet ≤ width

/-- The waiting reset takes effect: by the emission of its marked OK, or in NO_SIGNAL (R188; log 22). -/
def State.resetEvent (s : State) (width : Nat) : State :=
  match s.timing.lock with
  | .noSignal => s.resetAtNoSignal
  | _ =>
    if s.status.resetting.isSome && s.outputRuns && s.markedFits width then s.emitFree width s.lineSource none else s

/-- PART_RESET_EFFECT (R188). -/
def execPartResetEffect (width : Nat) (s : State) : Answer := .next (s.settle.resetEvent width)

end Sys2Proof.Machine
end

