-- ==== Sys2Proof/Machine/Messages.lean ====
section
/-! DEFINITION. Machine/Messages.lean: the meanings of the rows that are messages. Each is one whole message whose
fragments reach the Channel Unit in index order (log 1), after the rest of an open frame head (log 2); what the message
does is its owner's `take` definition in Compositor, ChangeSets, Store or Status, or `State.judgeResync`. -/

namespace Sys2Proof.Machine

/-- WIN_STAGE (R39). -/
def execWinStage (ch : Chan) (seq : SeqNo) (payload : List Byte) (s : State) : Answer :=
  .next (s.settle.receive .winStage ch seq payload)

/-- WIN_PLACE (R41). -/
def execWinPlace (ch : Chan) (seq : SeqNo) (payload : List Byte) (s : State) : Answer :=
  .next (s.settle.receive .winPlace ch seq payload)

/-- WIN_SHOW (R42). -/
def execWinShow (ch : Chan) (seq : SeqNo) (payload : List Byte) (s : State) : Answer :=
  .next (s.settle.receive .winShow ch seq payload)

/-- PAL_STAGE (R43). -/
def execPalStage (ch : Chan) (seq : SeqNo) (payload : List Byte) (s : State) : Answer :=
  .next (s.settle.receive .palStage ch seq payload)

/-- FILL_STAGE (R44). -/
def execFillStage (ch : Chan) (seq : SeqNo) (payload : List Byte) (s : State) : Answer :=
  .next (s.settle.receive .fillStage ch seq payload)

/-- SET_COMMIT (R48). -/
def execSetCommit (ch : Chan) (seq : SeqNo) (payload : List Byte) (s : State) : Answer :=
  .next (s.settle.receive .setCommit ch seq payload)

/-- SET_DISCARD (R60). -/
def execSetDiscard (ch : Chan) (seq : SeqNo) (payload : List Byte) (s : State) : Answer :=
  .next (s.settle.receive .setDiscard ch seq payload)

/-- SET_WITHDRAW (R61). -/
def execSetWithdraw (ch : Chan) (seq : SeqNo) (payload : List Byte) (s : State) : Answer :=
  .next (s.settle.receive .setWithdraw ch seq payload)

/-- SEG_CREATE (R71). -/
def execSegCreate (ch : Chan) (seq : SeqNo) (payload : List Byte) (s : State) : Answer :=
  .next (s.settle.receive .segCreate ch seq payload)

/-- SEG_WRITE (R76). -/
def execSegWrite (ch : Chan) (seq : SeqNo) (payload : List Byte) (s : State) : Answer :=
  .next (s.settle.receive .segWrite ch seq payload)

/-- SEG_CLOSE (R79). -/
def execSegClose (ch : Chan) (seq : SeqNo) (payload : List Byte) (s : State) : Answer :=
  .next (s.settle.receive .segClose ch seq payload)

/-- SEG_DELETE (R83). -/
def execSegDelete (ch : Chan) (seq : SeqNo) (payload : List Byte) (s : State) : Answer :=
  .next (s.settle.receive .segDelete ch seq payload)

/-- QUERY_STATUS (R181). -/
def execQueryStatus (ch : Chan) (seq : SeqNo) (payload : List Byte) (s : State) : Answer :=
  .next (s.settle.receive .queryStatus ch seq payload)

/-- QUERY_WINDOW (R22). -/
def execQueryWindow (ch : Chan) (seq : SeqNo) (payload : List Byte) (s : State) : Answer :=
  .next (s.settle.receive .queryWindow ch seq payload)

/-- QUERY_PALETTE (R33). -/
def execQueryPalette (ch : Chan) (seq : SeqNo) (payload : List Byte) (s : State) : Answer :=
  .next (s.settle.receive .queryPalette ch seq payload)

/-- QUERY_SEGMENT (R90). -/
def execQuerySegment (ch : Chan) (seq : SeqNo) (payload : List Byte) (s : State) : Answer :=
  .next (s.settle.receive .querySegment ch seq payload)

/-- QUERY_DIRECTORY (R91). -/
def execQueryDirectory (ch : Chan) (seq : SeqNo) (payload : List Byte) (s : State) : Answer :=
  .next (s.settle.receive .queryDirectory ch seq payload)

/-- PARAM_SET (R185). -/
def execParamSet (ch : Chan) (seq : SeqNo) (payload : List Byte) (s : State) : Answer :=
  .next (s.settle.receive .paramSet ch seq payload)

/-- PARAM_QUERY (R173). -/
def execParamQuery (ch : Chan) (seq : SeqNo) (payload : List Byte) (s : State) : Answer :=
  .next (s.settle.receive .paramQuery ch seq payload)

/-- PART_RESET (R187). -/
def execPartReset (ch : Chan) (seq : SeqNo) (payload : List Byte) (s : State) : Answer :=
  .next (s.settle.receive .partReset ch seq payload)

/-- RESYNC (R155). -/
def execResync (ch : Chan) (seq : SeqNo) (payload : List Byte) (s : State) : Answer :=
  .next (s.settle.receive .resync ch seq payload)

end Sys2Proof.Machine
end

