-- ==== Sys2Proof/Machine/Dispatch.lean ====
section
/-! DEFINITION. Machine/Dispatch.lean: one arm per row of spec/opcode_table.json. -/

namespace Sys2Proof.Machine

def exec (i : Instr) (s : State) : Host.Outcome State Fault Refusal :=
  match i with
  | .hardReset strap => Sys2Proof.Machine.execHardReset strap s
  | .lineMarker typeWord data refClks => Sys2Proof.Machine.execLineMarker typeWord data refClks s
  | .inputFrameHead data refClks headFirst => Sys2Proof.Machine.execInputFrameHead data refClks headFirst s
  | .absenceExpiry refClks => Sys2Proof.Machine.execAbsenceExpiry refClks s
  | .generatorLineBegin => Sys2Proof.Machine.execGeneratorLineBegin s
  | .holdoverLimitReached => Sys2Proof.Machine.execHoldoverLimitReached s
  | .setApplication => Sys2Proof.Machine.execSetApplication s
  | .assemblyTimeout => Sys2Proof.Machine.execAssemblyTimeout s
  | .responseEmission width => Sys2Proof.Machine.execResponseEmission width s
  | .winStage ch seq payload => Sys2Proof.Machine.execWinStage ch seq payload s
  | .winPlace ch seq payload => Sys2Proof.Machine.execWinPlace ch seq payload s
  | .winShow ch seq payload => Sys2Proof.Machine.execWinShow ch seq payload s
  | .palStage ch seq payload => Sys2Proof.Machine.execPalStage ch seq payload s
  | .fillStage ch seq payload => Sys2Proof.Machine.execFillStage ch seq payload s
  | .setCommit ch seq payload => Sys2Proof.Machine.execSetCommit ch seq payload s
  | .setDiscard ch seq payload => Sys2Proof.Machine.execSetDiscard ch seq payload s
  | .setWithdraw ch seq payload => Sys2Proof.Machine.execSetWithdraw ch seq payload s
  | .segCreate ch seq payload => Sys2Proof.Machine.execSegCreate ch seq payload s
  | .segWrite ch seq payload => Sys2Proof.Machine.execSegWrite ch seq payload s
  | .segClose ch seq payload => Sys2Proof.Machine.execSegClose ch seq payload s
  | .segDelete ch seq payload => Sys2Proof.Machine.execSegDelete ch seq payload s
  | .queryStatus ch seq payload => Sys2Proof.Machine.execQueryStatus ch seq payload s
  | .queryWindow ch seq payload => Sys2Proof.Machine.execQueryWindow ch seq payload s
  | .queryPalette ch seq payload => Sys2Proof.Machine.execQueryPalette ch seq payload s
  | .querySegment ch seq payload => Sys2Proof.Machine.execQuerySegment ch seq payload s
  | .queryDirectory ch seq payload => Sys2Proof.Machine.execQueryDirectory ch seq payload s
  | .paramSet ch seq payload => Sys2Proof.Machine.execParamSet ch seq payload s
  | .paramQuery ch seq payload => Sys2Proof.Machine.execParamQuery ch seq payload s
  | .partReset ch seq payload => Sys2Proof.Machine.execPartReset ch seq payload s
  | .resync ch seq payload => Sys2Proof.Machine.execResync ch seq payload s
  | .segWriteCompletion => Sys2Proof.Machine.execSegWriteCompletion s
  | .verifyCompletion => Sys2Proof.Machine.execVerifyCompletion s
  | .partResetEffect width => Sys2Proof.Machine.execPartResetEffect width s

end Sys2Proof.Machine
end

