-- ==== Sys2Proof/Safety.lean ====
section
/-! DEFINITION. Safety.lean: the laws of the part that hold at every point of a run, each as a Bool on a state, in the
terms the statements use. No command stops this part, so a safe run is one whose states keep these laws. -/

namespace Sys2Proof.Machine

/-- The bitmap memory is in its canonical form: addresses strictly rising, no byte listed that reads as unlisted. -/
def State.memoryLaw (s : State) : Bool := s.store.mem.wf

/-- Filled entries plus reservations never exceed 16 (R134). -/
def State.queueLaw (s : State) : Bool := s.pkt.total ≤ Config.queueEntries

/-- A set holds at most 32 edits and 8192 staged bytes (R35, R37). -/
def setFits (edits : List Edit) : Bool :=
  edits.length ≤ Config.maxEdits && stagedBytes edits ≤ Config.maxStagedBytes

/-- Both sets have the bounds of the open set (R35). -/
def State.setLaw (s : State) : Bool :=
  setFits s.cset.openSet && s.cset.scheduled.all fun set => setFits set.edits

/-- An assembly is present exactly in ASSEMBLING (R140). -/
def ChanRec.assemblyLaw (r : ChanRec) : Bool := r.assembly.isSome == (r.state == .assembling)

/-- An assembly holds 1 to 8 payloads, each of exactly 1024 bytes while it waits for more (R140, R146). -/
def ChanRec.fragsLaw (r : ChanRec) : Bool :=
  r.assembly.all fun a => 1 ≤ a.frags.length && a.frags.length ≤ 7 &&
    a.frags.all fun f => f.length == Config.fragmentBytes

/-- The laws of the channel records: channel 0 is IDLE or ASSEMBLING; an assembly is present exactly in ASSEMBLING and
has its bounds (R140). -/
def State.channelLaw (s : State) : Bool :=
  (s.chn.c0.state == .idle || s.chn.c0.state == .assembling)
    && [s.chn.c0, s.chn.c1, s.chn.c2, s.chn.c3].all fun r => r.assemblyLaw && r.fragsLaw

/-- The active tables have their sizes: eight windows, four palettes of 256 entries (R1, R24). -/
def State.tableLaw (s : State) : Bool :=
  s.comp.slots.length == 8 && s.comp.palettes.length == 4 && s.comp.palettes.all fun p => p.length == 256

/-- The directory's ids rise strictly, so they are distinct (R68). -/
def idsRise : List Segment → Bool
  | [] => true
  | g :: gs => gs.all (fun h => g.id < h.id) && idsRise gs

/-- Blocks on the free-block list and in the block lists of all segments (R66). -/
def Store.allBlocks (st : Store) : List Nat := st.freeList ++ st.dir.flatMap (·.blocks)

/-- Every block is either on the free-block list or in the block list of exactly one segment: together they are the
4096 blocks, none twice (R66). -/
def Store.blockLaw (st : Store) : Prop := st.allBlocks.Perm (List.range Config.blockCount)

/-- The enabled windows of a table have pairwise distinct priorities, and its line load never exceeds 3072 bytes (R4).
-/
def tableFits (wins : List WindowRec) : Bool :=
  (priorityClash wins).isNone && (peakLine wins).2 ≤ Config.maxLineLoad

/-- The active table fits, and so does the table that the scheduled set would make of it (R4, R51). -/
def State.pictureLaw (s : State) : Bool :=
  tableFits s.comp.wins && s.cset.scheduled.all fun set => tableFits (s.comp.writeAll set.edits).wins

/-- The channel an operation came from (R73). -/
def StoreOp.chan : StoreOp → Chan
  | .write _ ch _ _ => ch
  | .verify _ ch _ => ch

/-- The number of operations of a channel in the access queue. -/
def Store.opsOf (st : Store) (ch : Chan) : Nat := (st.queue.filter fun op => op.chan == ch).length

/-- A channel is EXECUTING exactly when an operation of its own is in the access queue, at most one, and holds exactly
one reservation then (R73, R134, R152). -/
def State.executingLawAt (s : State) (ch : Chan) : Bool :=
  let n := if (s.chan ch).state = .executing then 1 else 0
  s.store.opsOf ch == n && (s.pkt.reserved.filter fun c => c == ch).length == n

/-- R73, R134 and R152 for every channel. Between commands channel 0 holds no reservation (R134). -/
def State.executingLaw (s : State) : Bool := [0, 1, 2, 3].all fun ch => s.executingLawAt ch

/-- A RESETTING part has exactly one marked entry in its queue, and one that is not RESETTING has none (R187, R188). -/
def State.markLaw (s : State) : Bool :=
  (s.pkt.filled.filter fun e => e.marked).length == (if s.status.resetting.isSome then 1 else 0)

/-- No WIN_STAGE in a set names a segment that is missing or not READY (R40). -/
def Store.namesReady (st : Store) (edits : List Edit) : Bool :=
  edits.all fun e =>
    match e with
    | .winStage _ w => w.segment.all fun id => (st.seg id).any fun g => g.state == .ready
    | _ => true

/-- Edits of a set that name a segment (R70). -/
def namesSeg (id : Nat) (e : Edit) : Bool :=
  match e with
  | .winStage _ w => w.segment == some id
  | _ => false

/-- The edits of both sets. -/
def State.allEdits (s : State) : List Edit :=
  s.cset.openSet ++ (s.cset.scheduled.map (·.edits)).getD []

/-- The reference counts of every segment agree with the window records and the sets (R70), a RETIRING segment is
referenced by a window and by no edit, and a segment's blocks are those its length needs (R68). -/
def State.countLaw (s : State) : Bool :=
  s.store.dir.all fun g =>
    g.active == (s.comp.wins.filter fun w => w.segment == some g.id).length
      && g.staged == (s.allEdits.filter (namesSeg g.id)).length
      && (g.state != .retiring || (g.staged == 0 && g.active != 0))
      && g.blocks.length == blocksFor g.length

/-- Every window record that names a segment names one in state READY or RETIRING (R4), and edits name READY ones. -/
def State.namesLaw (s : State) : Bool :=
  (s.comp.wins.all fun w => w.segment.all fun id =>
    (s.store.seg id).any fun g => g.state == .ready || g.state == .retiring)
    && s.store.namesReady s.allEdits

/-- The segment an operation names. -/
def StoreOp.seg : StoreOp → Nat
  | .write id _ _ _ => id
  | .verify id _ _ => id

/-- The operation is a verify. -/
def StoreOp.isVerify : StoreOp → Bool
  | .write _ _ _ _ => false
  | .verify _ _ _ => true

/-- No operation behind a verify names its segment (R79, R81). -/
def verifyLast : List StoreOp → Bool
  | [] => true
  | op :: ops => (!op.isVerify || ops.all fun later => later.seg != op.seg) && verifyLast ops

/-- The access queue and the directory agree: every operation names a segment of the directory; a segment's
queued-operation count is the number of operations naming it; it is VERIFYING exactly when one of them is a verify; and
only LOADING and VERIFYING segments have any (R68, R69, R73, R79). -/
def Store.opLaw (st : Store) : Bool :=
  st.dir.all (fun g =>
    g.queued == (st.queue.filter fun op => op.seg == g.id).length
      && (g.state == .verifying) == (st.queue.any fun op => op.isVerify && op.seg == g.id)
      && (g.state == .loading || g.state == .verifying || g.queued == 0))
    && st.queue.all (fun op => (st.seg op.seg).isSome)
    && verifyLast st.queue

end Sys2Proof.Machine
end

