-- ==== Sys2Proof/Certificates/Slice0/Obligations.lean ====
section
/-! DEFINITION. Certificates/Slice0/Obligations.lean: the statements for the provers, and the words they are said in.

Throughout, `s.settle` is the state with the rest of an output head that is still open done (log 2); with no head open
it is `s` itself. A conclusion of the form `exec i s = .next { u with … }` names everything the command changes: each
block that stands in no clause of the update is unchanged, the bitmap memory included. -/

namespace Sys2Proof.Machine

/-! ### The words of the statements -/

/-- A message with the next sequence meets its channel IDLE, room in the response queue, a part that is not RESETTING,
and a lock state in which management lines are handed on. -/
def State.readyFor (u : State) (ch : Chan) (seq : SeqNo) : Prop :=
  u.takesLines = true ∧ (u.chan ch).state = .idle ∧ seq = (u.chan ch).last + 1 ∧ u.pkt.total < 16 ∧
    u.status.resetting = none

/-- A packet joins the tail of the fill order, unmarked. -/
def State.queued (u : State) (packet : List Byte) : State :=
  { u with pkt := { u.pkt with
      filled := u.pkt.filled ++ [{ packet := packet, marked := false, fillTime := u.pkt.fillClock }]
      fillClock := u.pkt.fillClock + 1 } }

/-- A channel's record after a message is answered: IDLE, the message's sequence, no assembly, the answer cached. -/
def ChanRec.answered (seq : SeqNo) (packet : List Byte) : ChanRec :=
  { state := .idle, last := seq, assembly := none, cache := some packet }

/-- The message on channel `ch` is answered: its response joins the queue and is cached, and its sequence is the last.
-/
def State.answered (u : State) (ch : Chan) (seq : SeqNo) (kind : Byte) (code : Code) (payload : List Byte) : State :=
  { u.queued (u.packet ch seq kind code payload) with
    chn := u.chn.set ch (.answered seq (u.packet ch seq kind code payload)) }

/-- The open set has room for one more edit of this payload length (R37). -/
def State.canStage (u : State) (bytes : Nat) : Prop :=
  u.cset.openSet.length < 32 ∧ stagedBytes u.cset.openSet + bytes ≤ 8192

/-- An edit appended at the tail of the open set. -/
def State.staged (u : State) (e : Edit) : State := { u with cset := { u.cset with openSet := u.cset.openSet ++ [e] } }

/-- An edit taken: appended, and answered OK with the counts after the append (R38). -/
def State.editTaken (u : State) (seq : SeqNo) (kind : Byte) (e : Edit) : State :=
  (u.staged e).answered 0 seq kind .ok (setCounts (u.cset.openSet ++ [e]))

/-- An edit refused for lack of room (R37). -/
def State.editFull (u : State) (seq : SeqNo) (kind : Byte) : State :=
  u.answered 0 seq kind .setFull (setCounts u.cset.openSet)

/-- The command that carries a message of a kind. -/
def Kind.command (k : Kind) (ch : Chan) (seq : SeqNo) (p : List Byte) : Instr :=
  match k with
  | .winStage => .winStage ch seq p
  | .winPlace => .winPlace ch seq p
  | .winShow => .winShow ch seq p
  | .palStage => .palStage ch seq p
  | .fillStage => .fillStage ch seq p
  | .setCommit => .setCommit ch seq p
  | .setDiscard => .setDiscard ch seq p
  | .setWithdraw => .setWithdraw ch seq p
  | .segCreate => .segCreate ch seq p
  | .segWrite => .segWrite ch seq p
  | .segClose => .segClose ch seq p
  | .segDelete => .segDelete ch seq p
  | .queryStatus => .queryStatus ch seq p
  | .queryWindow => .queryWindow ch seq p
  | .queryPalette => .queryPalette ch seq p
  | .querySegment => .querySegment ch seq p
  | .queryDirectory => .queryDirectory ch seq p
  | .paramSet => .paramSet ch seq p
  | .paramQuery => .paramQuery ch seq p
  | .partReset => .partReset ch seq p
  | .resync => .resync ch seq p

/-- The fields of a WIN_STAGE payload lie in the ranges of R39. -/
def winStageFits (p : List Byte) : Prop :=
  u1 p 0 ≤ 7 ∧ u1 p 1 ≤ 1 ∧ (u1 p 3 = 1 ∨ u1 p 3 = 2 ∨ u1 p 3 = 4 ∨ u1 p 3 = 8) ∧
    (1 ≤ u2 p 4 ∧ u2 p 4 ≤ 4096) ∧ (1 ≤ u2 p 6 ∧ u2 p 6 ≤ 4096) ∧ u2 p 8 ≤ 4095 ∧ u2 p 10 ≤ 4095 ∧
    (u1 p 12 = 1 ∨ u1 p 12 = 2 ∨ u1 p 12 = 4) ∧ (u1 p 13 = 1 ∨ u1 p 13 = 2 ∨ u1 p 13 = 4) ∧ u1 p 14 ≤ 3 ∧
    u1 p 15 ≤ 8 ∧ u1 p 16 ≤ 7 ∧ u1 p 19 ≤ 2 ∧ u1 p 20 ≤ 1 ∧ (u1 p 20 = 1 → u1 p 21 < 2 ^ u1 p 3) ∧
    u2 p 22 = if u1 p 3 = 8 then 0 else 2 ^ u1 p 3

/-- The fields of a PAL_STAGE payload lie in the ranges of R43. -/
def palStageFits (p : List Byte) : Prop :=
  u1 p 0 ≤ 3 ∧ 1 ≤ u2 p 2 ∧ u2 p 2 ≤ 256 ∧ u1 p 1 + u2 p 2 ≤ 256 ∧
    ∀ k < u2 p 2, u2 p (4 + 8 * k) ≤ 1023 ∧ u2 p (4 + 8 * k + 2) ≤ 1023 ∧ u2 p (4 + 8 * k + 4) ≤ 1023 ∧
      u2 p (4 + 8 * k + 6) ≤ 16

/-- The record with an id, changed; every other record as it was. -/
def Store.retag (st : Store) (id : Nat) (f : Segment → Segment) : Store :=
  { st with dir := st.dir.map fun g => if g.id = id then f g else g }

/-- The WIN_STAGE edits of a set that name a segment. -/
def namesOf (edits : List Edit) (id : Nat) : Nat := (edits.filter (namesSeg id)).length

/-- The staged references of a set released (R85). -/
def Store.released (st : Store) (edits : List Edit) : Store :=
  { st with dir := st.dir.map fun g => { g with staged := g.staged - namesOf edits g.id } }

/-- A marker of a type other than FRAME_HEAD, after which the frame in progress stays below its 4201st marker (R97). -/
def InFrame.goesOn (fr : InFrame) (typeWord : Lane) : Prop := typeWord ≠ 0x26C ∧ fr.lines.length + 1 < 4200

/-- The frame in progress after such a marker: its open line recorded, the next line open. -/
def InFrame.afterLine (fr : InFrame) (data : List DataWord) (typeWord : Lane) (refClks : Nat) : InFrame :=
  { fr.withLine data with openType := LineType.ofWord typeWord, refClks := fr.refClks + refClks }

/-- The output follows the input: ACQUIRING or LOCKED (R103). -/
def State.follows (u : State) : Prop := u.timing.lock = .acquiring ∨ u.timing.lock = .locked

/-- A freshly begun inbound frame (R97). -/
def InFrame.fresh : InFrame :=
  { headless := false, lines := [], openType := .frameHead, decodable := false, refClks := 0 }

/-- A line emitted. -/
def Link.emits (l : Link) (type : LineType) (data : List DataWord) (source : LineSource) (offset : Option Nat) : Link :=
  { l with vout := .line { type := type, data := data, source := source, offset := offset }, cut := false }

/-- A parameter's value lies in its range (R185). -/
def paramInRange (ident value : Nat) : Prop :=
  (ident = 1 ∧ 1 ≤ value ∧ value ≤ 63) ∨ (ident = 2 ∧ 1 ≤ value ∧ value ≤ 16) ∨
    (ident = 3 ∧ 1 ≤ value ∧ value ≤ 255) ∨ (ident = 4 ∧ value ≤ 65535) ∨ (ident = 5 ∧ 2 ≤ value ∧ value ≤ 64) ∨
    (ident = 6 ∧ value ≤ 63)

/-- The fields of each kind that have a range, in payload order: position, and what the field must satisfy (R22, R33,
R39, R41 to R44, R71, R166, R168, R171 to R175, R185). -/
def Kind.valueRules (k : Kind) (p : List Byte) : List (Nat × Prop) :=
  match k with
  | .winStage =>
    [(0, u1 p 0 ≤ 7), (1, u1 p 1 ≤ 1), (3, u1 p 3 = 1 ∨ u1 p 3 = 2 ∨ u1 p 3 = 4 ∨ u1 p 3 = 8),
     (4, 1 ≤ u2 p 4 ∧ u2 p 4 ≤ 4096), (6, 1 ≤ u2 p 6 ∧ u2 p 6 ≤ 4096), (8, u2 p 8 ≤ 4095), (10, u2 p 10 ≤ 4095),
     (12, u1 p 12 = 1 ∨ u1 p 12 = 2 ∨ u1 p 12 = 4), (13, u1 p 13 = 1 ∨ u1 p 13 = 2 ∨ u1 p 13 = 4),
     (14, u1 p 14 ≤ 3), (15, u1 p 15 ≤ 8), (16, u1 p 16 ≤ 7), (19, u1 p 19 ≤ 2), (20, u1 p 20 ≤ 1),
     (21, u1 p 20 = 1 → u1 p 21 < 2 ^ u1 p 3), (22, u2 p 22 = if u1 p 3 = 8 then 0 else 2 ^ u1 p 3)]
  | .winPlace => [(0, u1 p 0 ≤ 7), (1, u1 p 1 = 0), (2, u2 p 2 ≤ 4095), (4, u2 p 4 ≤ 4095)]
  | .winShow => [(0, u1 p 0 ≤ 7), (1, u1 p 1 ≤ 1)]
  | .palStage =>
    (0, u1 p 0 ≤ 3) :: (2, 1 ≤ u2 p 2 ∧ u2 p 2 ≤ 256 ∧ u1 p 1 + u2 p 2 ≤ 256) ::
      (List.range (u2 p 2)).flatMap fun i =>
        [(4 + 8 * i, u2 p (4 + 8 * i) ≤ 1023), (4 + 8 * i + 2, u2 p (4 + 8 * i + 2) ≤ 1023),
         (4 + 8 * i + 4, u2 p (4 + 8 * i + 4) ≤ 1023), (4 + 8 * i + 6, u2 p (4 + 8 * i + 6) ≤ 16)]
  | .fillStage => [(0, u2 p 0 ≤ 1023), (2, u2 p 2 ≤ 1023), (4, u2 p 4 ≤ 1023)]
  | .setCommit => [(0, u1 p 0 ≤ 1)]
  | .segCreate => [(0, 1 ≤ u4 p 0 ∧ u4 p 0 ≤ 255), (4, 1 ≤ u4 p 4 ∧ u4 p 4 ≤ 2097152)]
  | .queryStatus => [(0, u1 p 0 ≤ 1)]
  | .queryWindow => [(0, u1 p 0 ≤ 7)]
  | .queryPalette =>
    [(0, u1 p 0 ≤ 3), (1, u2 p 1 ≤ 255), (3, 1 ≤ u2 p 3 ∧ u2 p 3 ≤ 120 ∧ u2 p 1 + u2 p 3 ≤ 256)]
  | .paramSet =>
    (List.range (p.length / 3)).flatMap fun i =>
      [(3 * i, 1 ≤ u1 p (3 * i) ∧ u1 p (3 * i) ≤ 6), (3 * i + 1, paramInRange (u1 p (3 * i)) (u2 p (3 * i + 1)))]
  | .paramQuery => (List.range p.length).map fun i => (i, 1 ≤ u1 p i ∧ u1 p i ≤ 6)
  | .partReset => [(0, u1 p 0 = 1 ∨ u1 p 0 = 2)]
  | _ => []

/-- The payload lengths each kind allows (R165). -/
def Kind.allowsLength (k : Kind) (p : List Byte) : Prop :=
  match k with
  | .winStage => 24 ≤ p.length ∧ p.length = 24 + u2 p 22
  | .winPlace => p.length = 6
  | .winShow => p.length = 2
  | .palStage => 4 ≤ p.length ∧ p.length = 4 + 8 * u2 p 2
  | .fillStage => p.length = 6
  | .setCommit => p.length = 3
  | .setDiscard => p.length = 0
  | .setWithdraw => p.length = 0
  | .segCreate => p.length = 8
  | .segWrite => 9 ≤ p.length ∧ p.length ≤ 8192
  | .segClose => p.length = 8
  | .segDelete => p.length = 4
  | .queryStatus => p.length = 1
  | .queryWindow => p.length = 1
  | .queryPalette => p.length = 5
  | .querySegment => p.length = 4
  | .queryDirectory => p.length = 0
  | .paramSet => ∃ n, 1 ≤ n ∧ n ≤ 16 ∧ p.length = 3 * n
  | .paramQuery => 1 ≤ p.length ∧ p.length ≤ 16
  | .partReset => p.length = 1
  | .resync => p.length = 0

/-- The length a BAD_LENGTH refusal says the kind requires, where R165 states one (log 8). -/
def Kind.statedLength (k : Kind) (p : List Byte) : Option Nat :=
  match k with
  | .winStage => some (if p.length < 24 then 24 else 24 + u2 p 22)
  | .winPlace => some 6
  | .winShow => some 2
  | .palStage => some (if p.length < 4 then 4 else 4 + 8 * u2 p 2)
  | .fillStage => some 6
  | .setCommit => some 3
  | .setDiscard => some 0
  | .setWithdraw => some 0
  | .segCreate => some 8
  | .segWrite => if p.length < 9 then some 9 else none
  | .segClose => some 8
  | .segDelete => some 4
  | .queryStatus => some 1
  | .queryWindow => some 1
  | .queryPalette => some 5
  | .querySegment => some 4
  | .queryDirectory => some 0
  | .paramSet => if p.length < 3 then some 3 else none
  | .paramQuery => if p.length < 1 then some 1 else none
  | .partReset => some 1
  | .resync => some 0

/-- The inbound frame in progress, replaced. -/
def State.framed (u : State) (fr : InFrame) : State := { u with link := { u.link with inFrame := some fr } }

/-- The packet of a completed line, where there is one, handed to the Channel Unit (R128). -/
def State.handed (u : State) (f : Option Fragment) : State :=
  match f with
  | some f => u.fragment f
  | none => u

/-- An input frame head begins a frame (R97) and fixes the inbound range (R124); no frame is followed where the part is
in NO_SIGNAL or HOLDOVER. -/
def State.headBegun (u : State) : State :=
  { u with
    link := { u.link with
      inFrame := if u.timing.lock = .noSignal ∨ u.timing.lock = .holdover then none else some InFrame.fresh }
    pkt := { u.pkt with inRange := ⟨u.status.params.mgmtFirstLine, u.status.params.mgmtLineCount⟩ } }

/-- One window's move from the segment it named to the one it names (R56): where they differ, a release of the old one,
then an acquire of the new one. -/
def State.windowMoved (u : State) (f : FrameNo) (old new : Option Nat) : State :=
  if old = new then u
  else
    let released := match old with
      | some id => u.activeRelease f id
      | none => u
    match new with
    | some id => { released with store := released.store.retag id fun g => { g with active := g.active + 1 } }
    | none => released

/-- The assembly of one channel at an output frame head (R148): dropped where its count has reached ASSEMBLY_TIMEOUT,
with the flag and the notice. -/
def State.timedOut (u : State) (ch : Chan) : State :=
  match (u.chan ch).assembly with
  | some a =>
    if u.status.params.assemblyTimeout ≤ a.heads then
      State.offerNotice
        { u with
          chn := u.chn.set ch { u.chan ch with state := .idle, assembly := none }
          status := { u.status with flags := { u.status.flags with assemblyTimeout := true } } }
        .assemblyTimeout [byte ch.val, a.seq.setWidth 8, byte a.frags.length]
    else u
  | none => u

/-- Two enabled windows of a table share a priority. -/
def clashes (wins : List WindowRec) (i j : Nat) : Prop :=
  i ≠ j ∧ ∃ v w, wins[i]? = some v ∧ wins[j]? = some w ∧ v.enabled = true ∧ w.enabled = true ∧
    v.priority = w.priority

/-- An enabled window of a table names no segment. -/
def unnamed (wins : List WindowRec) (i : Nat) : Prop :=
  ∃ w, wins[i]? = some w ∧ w.enabled = true ∧ w.segment = none

/-- An enabled window of a table names a segment shorter than its required length. -/
def short (st : Store) (wins : List WindowRec) (i : Nat) : Prop :=
  ∃ w, wins[i]? = some w ∧ w.enabled = true ∧ st.lengthOf w.segment < w.required

/-- `i` is the lowest index at which `P` holds. -/
def lowest (P : Nat → Prop) (i : Nat) : Prop := P i ∧ ∀ j, P j → i ≤ j

/-- `L` is the lowest line at which the greatest line load, `m`, occurs. -/
def peaksAt (wins : List WindowRec) (L m : Nat) : Prop :=
  lineLoad wins L = m ∧ (∀ y, lineLoad wins y ≤ m) ∧ ∀ y < L, lineLoad wins y < m

end Sys2Proof.Machine

section Statements

open Sys2Proof Sys2Proof.Machine

/-! ### Steps, hard reset -/

/-- A step runs the command at the front of the queue, on the state with the queue's rest; on an empty queue it finishes
an open output head and idles (the model's own choice, log 19). -/
def Obligations.StepRunsFrontCommand : Prop :=
  (∀ (c : Instr) (rest : List Instr) (s : State), s.pending = c :: rest →
    step s = exec c { s with pending := rest }) ∧
  (∀ s : State, s.pending = [] → step s = .next s.settle) ∧
  ∀ s : State, s.pending = [] → s.headOpen = false → step s = .next s

/-- HARD_RESET puts every block at its hard-reset values (R20, R32, R63, R92, R104, R138, R160, R178). -/
def Obligations.HardResetValues : Prop :=
  ∀ (strap : BitVec 5) (s : State), ∃ t, exec (.hardReset strap) s = .next t ∧
    t.timing = { lock := .noSignal, recorded := none, candidate := none, matchCount := 0, faultCount := 0,
                 holdoverCount := 0, frame := none, absence := false, gen := none } ∧
    t.link.vout = .silent ∧ t.link.inFrame = none ∧
    t.comp.slots.length = 8 ∧
    (∀ i : Fin 8, t.comp.slots[i.val]? = some
      { win := { enabled := false, segment := none, depth := .d8, srcWidth := 1, srcHeight := 1, originX := 0,
                 originY := 0, hScale := .x1, vScale := .x1, palette := 0, level := 0, priority := i, blinkOn := 0,
                 blinkOff := 0, cond := .always, key := none, remap := none }
        phase := 0, shown := false }) ∧
    (∀ p < 4, ∀ i < 256, (t.comp.palettes[p]?).bind (·[i]?) = some ⟨64, 512, 512, 0⟩) ∧
    t.comp.fill = ⟨64, 512, 512⟩ ∧ t.comp.latch = .noSignal ∧
    t.cset = { openSet := [], scheduled := none, lastApp := none } ∧
    t.store.dir = [] ∧ t.store.queue = [] ∧ t.store.freeList = List.range 4096 ∧
    t.pkt.filled = [] ∧ t.pkt.reserved = [] ∧ t.pkt.inRange = ⟨1, 4⟩ ∧ t.pkt.outRange = ⟨1, 4⟩ ∧
    (∀ ch, t.chan ch = { state := .idle, last := 15, assembly := none, cache := none }) ∧
    t.status = { params := { mgmtFirstLine := 1, mgmtLineCount := 4, assemblyTimeout := 8, holdoverLimit := 65535,
                             lossInterval := 4, noticeMask := 63 }
                 flags := Flags.clear, address := strap, resetting := none, lastReset := .hard }

/-! ### Laws that every step keeps -/

/-- The bitmap memory keeps its canonical form. The form (addresses strictly rising, no byte listed that an unlisted
address reads as) is the model's own representation of the 2,097,152 bytes of R66, with the model's choice of log 10.
-/
def Obligations.MemoryStaysCanonical : Prop :=
  (∀ s : State, s.memoryLaw = true ↔
    s.store.mem.Pairwise (fun c d => c.1 < d.1) ∧ ∀ c ∈ s.store.mem, c.2 ≠ 0) ∧
  ∀ s t : State, s.memoryLaw = true → step s = .next t → t.memoryLaw = true

/-- Every block stays on the free-block list or in exactly one segment (R66); segment ids stay distinct, in ascending
order (R68). -/
def Obligations.BlocksConserved : Prop :=
  (∀ st : Store, st.blockLaw ↔ (st.freeList ++ st.dir.flatMap (·.blocks)).Perm (List.range 4096)) ∧
  (∀ dir : List Segment, idsRise dir = true ↔ dir.Pairwise fun g h => g.id < h.id) ∧
  ∀ s t : State, s.store.blockLaw → idsRise s.store.dir = true → step s = .next t →
    t.store.blockLaw ∧ idsRise t.store.dir = true

/-- The active table never clashes and never overloads a line, nor does the table that a scheduled set would make of it
(R4, R51). -/
def Obligations.PictureLawKept : Prop :=
  (∀ s : State, let fits := fun wins : List WindowRec => (∀ i j, ¬ clashes wins i j) ∧ ∀ y, lineLoad wins y ≤ 3072
    s.pictureLaw = true ↔ fits s.comp.wins ∧
      ∀ set, s.cset.scheduled = some set → fits (s.comp.writeAll set.edits).wins) ∧
  ∀ s t : State, s.pictureLaw = true → step s = .next t → t.pictureLaw = true

/-- There stay eight windows and four palettes of 256 entries (R1, R24); both sets keep their bounds (R35); and a
RESETTING part keeps exactly one marked entry in its queue, any other part none (R187, R188). -/
def Obligations.SizesAndResetMarkKept : Prop :=
  (∀ s : State, s.tableLaw = true ↔
    s.comp.slots.length = 8 ∧ s.comp.palettes.length = 4 ∧ ∀ pal ∈ s.comp.palettes, pal.length = 256) ∧
  (∀ s : State, let fits := fun edits : List Edit => edits.length ≤ 32 ∧ stagedBytes edits ≤ 8192
    s.setLaw = true ↔ fits s.cset.openSet ∧ ∀ set, s.cset.scheduled = some set → fits set.edits) ∧
  (∀ s : State, s.markLaw = true ↔
    (s.pkt.filled.filter fun e => e.marked).length = if s.status.resetting = none then 0 else 1) ∧
  (∀ s t : State, s.tableLaw = true → step s = .next t → t.tableLaw = true) ∧
  (∀ s t : State, s.setLaw = true → step s = .next t → t.setLaw = true) ∧
  ∀ s t : State, s.markLaw = true → step s = .next t → t.markLaw = true

/-- Channel records keep their laws (R140); a channel is EXECUTING exactly when it has one operation queued and one
reservation (R73, R134, R152); the response queue never exceeds 16 (R134). -/
def Obligations.ChannelAndQueueLawsKept : Prop :=
  (∀ s : State, s.channelLaw = true ↔
    ((s.chan 0).state = .idle ∨ (s.chan 0).state = .assembling) ∧
    ∀ ch, ((s.chan ch).state = .assembling ↔ (s.chan ch).assembly ≠ none) ∧
      ∀ a, (s.chan ch).assembly = some a → 1 ≤ a.frags.length ∧ a.frags.length ≤ 7 ∧ ∀ f ∈ a.frags, f.length = 1024) ∧
  (∀ s : State, s.executingLaw = true ↔ ∀ ch, let n := if (s.chan ch).state = .executing then 1 else 0
    (s.store.queue.filter fun op => match op with
      | .write _ c _ _ => c = ch
      | .verify _ c _ => c = ch).length = n ∧
    (s.pkt.reserved.filter fun c => c = ch).length = n) ∧
  (∀ s : State, s.queueLaw = true ↔ s.pkt.filled.length + s.pkt.reserved.length ≤ 16) ∧
  ∀ s t : State, s.channelLaw = true → s.executingLaw = true → s.queueLaw = true → step s = .next t →
    t.channelLaw = true ∧ t.executingLaw = true ∧ t.queueLaw = true

/-- Reference counts equal the references there are (R70), windows name only READY or RETIRING segments (R4), edits only
READY ones (R40), and the access queue agrees with the directory (R68, R69). -/
def Obligations.ReferenceCountsExact : Prop :=
  (∀ st : Store, st.opLaw = true ↔
    (∀ g ∈ st.dir, g.queued = (st.queue.filter fun op => op.seg = g.id).length ∧
      (g.state = .verifying ↔ ∃ ch check, .verify g.id ch check ∈ st.queue) ∧
      (g.state = .ready ∨ g.state = .retiring → g.queued = 0)) ∧
    (∀ op ∈ st.queue, st.seg op.seg ≠ none) ∧
    st.queue.Pairwise fun op later => ∀ id ch check, op = .verify id ch check → later.seg ≠ id) ∧
  (∀ (id : Nat) (ch : Chan) (offset : Nat) (data : List Byte) (check : BitVec 32),
    (StoreOp.write id ch offset data).seg = id ∧ (StoreOp.verify id ch check).seg = id) ∧
  (∀ s : State, s.namesLaw = true ↔
    (∀ w ∈ s.comp.wins, ∀ id, w.segment = some id →
      ∃ g, s.store.seg id = some g ∧ (g.state = .ready ∨ g.state = .retiring)) ∧
    ∀ i w id, (.winStage i w ∈ s.cset.openSet ∨ ∃ set, s.cset.scheduled = some set ∧ .winStage i w ∈ set.edits) →
      w.segment = some id → ∃ g, s.store.seg id = some g ∧ g.state = .ready) ∧
  (∀ s : State, s.countLaw = true ↔ ∀ g ∈ s.store.dir,
    let scheduled := match s.cset.scheduled with
      | some set => set.edits
      | none => []
    g.active = (s.comp.wins.filter fun w => w.segment = some g.id).length ∧
    g.staged = namesOf s.cset.openSet g.id + namesOf scheduled g.id ∧
    (g.state = .retiring → g.staged = 0 ∧ g.active ≠ 0) ∧ g.blocks.length = (g.length + 511) / 512) ∧
  ∀ s t : State, idsRise s.store.dir = true → s.store.opLaw = true → s.namesLaw = true → s.countLaw = true →
    step s = .next t →
    idsRise t.store.dir = true ∧ t.store.opLaw = true ∧ t.namesLaw = true ∧ t.countLaw = true

/-- The machine right after reset has every one of these laws. The model's own choices at a hard reset: memory lists
nothing (log 10), no head is open (log 2), and the commands that wait stay (log 20). -/
def Obligations.ResetHasTheLaws : Prop :=
  State.reset.memoryLaw = true ∧ State.reset.store.blockLaw ∧ idsRise State.reset.store.dir = true ∧
    State.reset.pictureLaw = true ∧ State.reset.tableLaw = true ∧ State.reset.setLaw = true ∧
    State.reset.channelLaw = true ∧ State.reset.executingLaw = true ∧ State.reset.queueLaw = true ∧
    State.reset.markLaw = true ∧ State.reset.store.opLaw = true ∧ State.reset.namesLaw = true ∧
    State.reset.countLaw = true ∧
    ∀ (strap : BitVec 5) (s t : State), exec (.hardReset strap) s = .next t →
      t.store.mem = [] ∧ t.headOpen = false ∧ t.pending = s.pending

/-! ### Colour arithmetic and composition -/

/-- The blend of R28: its value, in both forms, and the properties R28 gives. -/
def Obligations.BlendArithmetic : Prop :=
  ∀ (o : Nat) (c b : Lane), o ≤ 16 →
    (blend o c b).toNat = (o * c.toNat + (16 - o) * b.toNat + 8) / 16 ∧
    o * c.toNat + (16 - o) * b.toNat + 8 ≤ 16376 ∧
    ((blend o c b).toNat : Int) = b.toNat + ((o : Int) * (c.toNat - b.toNat) + 8).fdiv 16 ∧
    (o = 0 → blend o c b = b) ∧ (o = 16 → blend o c b = c) ∧
    (min b.toNat c.toNat ≤ (blend o c b).toNat ∧ (blend o c b).toNat ≤ max b.toNat c.toNat) ∧
    (∀ n : Nat, 2 * (o * c.toNat + (16 - o) * b.toNat) = 16 * (2 * n + 1) → (blend o c b).toNat = n + 1) ∧
    (blend o c b ≠ b ↔ 8 ≤ (o : Int) * (c.toNat - b.toNat) ∨ (o : Int) * (c.toNat - b.toNat) ≤ -9)

/-- A window visited at column `x` (R11, R12, R13, R27): outside its columns or at a keyed pixel it leaves both lanes;
else it blends its entry's Y into luma and Cb (x even) or Cr (x odd) into chroma, both with floor(opacity x level /
8). -/
def Obligations.WindowVisit : Prop :=
  ∀ (c : Compositor) (x : Nat) (pix : DataWord) (f : RowFetch),
    let raw := rawValue f.win.depth f.bytes ((x - f.win.originX) / f.win.hScale.factor)
    let index := match f.win.remap with
      | some list => (list[raw]?).getD 0
      | none => raw
    let e := c.palEntry f.win.palette index
    let o := e.opacity.val * f.win.level.val / 8
    let inside := f.win.originX ≤ x ∧ x < f.win.originX + f.win.srcWidth * f.win.hScale.factor
    (¬ inside → visit c x pix f = pix) ∧
    (inside → f.win.key = some raw → visit c x pix f = pix) ∧
    (inside → f.win.key ≠ some raw →
      visit c x pix f = ⟨blend o e.y pix.luma, blend o (if x % 2 = 0 then e.cb else e.cr) pix.chroma⟩) ∧
    o ≤ 16 ∧ o ≤ e.opacity.val ∧ (f.win.level = 8 → o = e.opacity.val) ∧
    (e.opacity = 16 → o = 2 * f.win.level.val) ∧ (f.win.level = 0 → o = 0 ∧ visit c x pix f = pix)

/-- Pixel packing (R5): the raw value of column `c` is the (c mod (8 / depth))-th group of depth bits, counted from
the most significant end, of byte floor(c x depth / 8) of the row. -/
def Obligations.RawValuePacking : Prop :=
  ∀ (d : Depth) (row : List Byte) (c : Nat) (b : Byte), row[c * d.bits / 8]? = some b →
    rawValue d row c = (b <<< (c % (8 / d.bits) * d.bits)).toNat / 2 ^ (8 - d.bits) ∧
    rawValue d row c < 2 ^ d.bits

/-- A composed ACTIVE line (R10, R14): as wide as its base; each pixel is the base with the fetched windows visited in
order, clamped once at the end into 4-1019. -/
def Obligations.ComposedLine : Prop :=
  ∀ (s : State) (y : Nat) (base : List DataWord),
    (s.composeLine y base).length = base.length ∧
    ∀ x pix, base[x]? = some pix →
      let run := (s.rowFetches y base.length).foldl (visit s.comp x) pix
      let clamp := fun v : Lane => if v.toNat < 4 then (4 : Lane) else if 1019 < v.toNat then 1019 else v
      (s.composeLine y base)[x]? = some ⟨clamp run.luma, clamp run.chroma⟩ ∧
      4 ≤ (clamp run.luma).toNat ∧ (clamp run.luma).toNat ≤ 1019 ∧
      4 ≤ (clamp run.chroma).toNat ∧ (clamp run.chroma).toNat ≤ 1019

/-- The compositor's fetches for a line (R6, R7, R10): one row for each shown window whose span covers the line and
whose footprint there is not empty, each window once, in ascending priority, strictly where the shown windows'
priorities are distinct (as R4 has those of the enabled ones); each is the stride bytes of the source row. -/
def Obligations.RowFetchesOfALine : Prop :=
  ∀ (s : State) (y width : Nat),
    (s.rowFetches y width).Pairwise (fun a b => a.win.priority.val ≤ b.win.priority.val) ∧
    (∀ f, f ∈ s.rowFetches y width ↔ ∃ sl ∈ s.comp.slots, sl.shown = true ∧
      sl.win.originY ≤ y ∧ y < sl.win.originY + sl.win.srcHeight * sl.win.vScale.factor ∧ sl.win.originX < width ∧
      f = { win := sl.win, bytes := s.store.rowBytes sl.win y }) ∧
    (s.rowFetches y width).Perm ((s.comp.slots.filter fun sl => sl.shown ∧ sl.win.originY ≤ y ∧
        y < sl.win.originY + sl.win.srcHeight * sl.win.vScale.factor ∧ sl.win.originX < width).map
      fun sl => { win := sl.win, bytes := s.store.rowBytes sl.win y }) ∧
    ((∀ (i j : Nat) (a b : WinSlot), i ≠ j → s.comp.slots[i]? = some a → s.comp.slots[j]? = some b → a.shown = true →
        b.shown = true → a.win.priority ≠ b.win.priority) →
      (s.rowFetches y width).Pairwise (fun a b => a.win.priority.val < b.win.priority.val)) ∧
    ∀ (w : WindowRec) (id : Nat) (g : Segment), w.segment = some id → s.store.seg id = some g →
      (s.store.rowBytes w y).length = w.stride ∧
      ∀ i < w.stride, (s.store.rowBytes w y)[i]? =
        some (segRead s.store.mem g.blocks ((y - w.originY) / w.vScale.factor * w.stride + i))

/-- The frame-head decision for a window that no edit touches (R16, R18, R19). -/
def Obligations.HeadDecision : Prop :=
  ∀ (c : Compositor) (lock : LockState) (i : Nat) (sl : WinSlot), c.slots[i]? = some sl →
    let composed := lock = .locked ∨ lock = .holdover ∨ lock = .rejoining
    let blinking := sl.win.blinkOn ≠ 0 ∧ sl.win.blinkOff ≠ 0
    (c.atHead lock).latch = lock ∧ ∃ sl', (c.atHead lock).slots[i]? = some sl' ∧ sl'.win = sl.win ∧
      (¬ blinking → sl'.phase = 0) ∧
      (blinking → ¬ composed → sl'.phase = sl.phase) ∧
      (blinking → composed → sl.phase + 1 = sl.win.blinkOn + sl.win.blinkOff → sl'.phase = 0) ∧
      (blinking → composed → sl.phase + 1 ≠ sl.win.blinkOn + sl.win.blinkOff → sl'.phase = sl.phase + 1) ∧
      (sl'.shown = true ↔ sl.win.enabled = true ∧
        (match sl.win.cond with
          | .always => composed
          | .signal => lock = .locked
          | .noSignal => lock = .holdover ∨ lock = .rejoining) ∧
        (¬ blinking ∨ sl'.phase < sl.win.blinkOn))

/-- What each edit writes (R17, R26, R31), that edits are written in order, that an application restarts the blink
cycle of the windows that a WIN_STAGE, WIN_PLACE or WIN_SHOW of the set names and of no other (R17, R18), and that it
decides anew which windows are shown (R19). -/
def Obligations.ApplicationWrites : Prop :=
  ∀ c : Compositor, c.wins = c.slots.map (·.win) ∧
    (∀ i w j, (c.write (.winStage i w)).wins[j]? = if i = j then (c.wins[j]?).map (fun _ => w) else c.wins[j]?) ∧
    (∀ i x y j, (c.write (.winPlace i x y)).wins[j]? =
      if i = j then (c.wins[j]?).map (fun w => { w with originX := x, originY := y }) else c.wins[j]?) ∧
    (∀ i on j, (c.write (.winShow i on)).wins[j]? =
      if i = j then (c.wins[j]?).map (fun w => { w with enabled := on }) else c.wins[j]?) ∧
    (∀ p first entries q i e, (c.palettes[q]?).bind (·[i]?) = some e →
      ((c.write (.palStage p first entries)).palettes[q]?).bind (·[i]?) =
        some (if p = q ∧ first ≤ i then (entries[i - first]?).getD e else e)) ∧
    (∀ colour, (c.write (.fillStage colour)).fill = colour) ∧
    (∀ i w, (c.write (.winStage i w)).palettes = c.palettes ∧ (c.write (.winStage i w)).fill = c.fill) ∧
    (∀ i x y, (c.write (.winPlace i x y)).palettes = c.palettes ∧ (c.write (.winPlace i x y)).fill = c.fill) ∧
    (∀ i on, (c.write (.winShow i on)).palettes = c.palettes ∧ (c.write (.winShow i on)).fill = c.fill) ∧
    (∀ p first entries, (c.write (.palStage p first entries)).wins = c.wins ∧
      (c.write (.palStage p first entries)).fill = c.fill) ∧
    (∀ colour, (c.write (.fillStage colour)).wins = c.wins ∧
      (c.write (.fillStage colour)).palettes = c.palettes) ∧
    c.writeAll [] = c ∧ (∀ edits e, c.writeAll (edits ++ [e]) = (c.writeAll edits).write e) ∧
    ∀ edits, (c.apply edits).wins = (c.writeAll edits).wins ∧
      (c.apply edits).palettes = (c.writeAll edits).palettes ∧ (c.apply edits).fill = (c.writeAll edits).fill ∧
      (c.apply edits).latch = c.latch ∧
      (∀ (i : Nat) (sl : WinSlot), c.slots[i]? = some sl →
        let touched := (∃ w, .winStage i w ∈ edits) ∨ (∃ x y, .winPlace i x y ∈ edits) ∨ ∃ on, .winShow i on ∈ edits
        (touched → ((c.apply edits).slots[i]?).map (·.phase) = some 0) ∧
        (¬ touched → ((c.apply edits).slots[i]?).map (·.phase) = some sl.phase)) ∧
      ∀ sl ∈ (c.apply edits).slots, sl.shown = true ↔ sl.win.enabled = true ∧
        (match sl.win.cond with
          | .always => c.latch = .locked ∨ c.latch = .holdover ∨ c.latch = .rejoining
          | .signal => c.latch = .locked
          | .noSignal => c.latch = .holdover ∨ c.latch = .rejoining) ∧
        (sl.win.blinkOn = 0 ∨ sl.win.blinkOff = 0 ∨ sl.phase < sl.win.blinkOn)

/-! ### Change sets -/

/-- WIN_PLACE and WIN_SHOW (R37, R38, R41, R42): taken and answered with the counts, or refused SET_FULL. An edit's
payload length, a set's staged bytes and the counts a response carries are those of R36. -/
def Obligations.PlaceAndShowStaged : Prop :=
  (∀ i w, (Edit.winStage i w).bytes = 24 + (match w.remap with
    | some entries => entries.length
    | none => 0)) ∧
  (∀ i x y, (Edit.winPlace i x y).bytes = 6) ∧ (∀ i on, (Edit.winShow i on).bytes = 2) ∧
  (∀ q first entries, (Edit.palStage q first entries).bytes = 4 + 8 * entries.length) ∧
  (∀ colour, (Edit.fillStage colour).bytes = 6) ∧
  (∀ edits, stagedBytes edits = (edits.map Edit.bytes).sum ∧
    setCounts edits = BitVec.ofNat 8 edits.length :: be2 (stagedBytes edits)) ∧
  ∀ (s : State) (seq : SeqNo) (p : List Byte), let u := s.settle
    u.readyFor 0 seq →
    (p.length = 6 → u1 p 0 ≤ 7 → u1 p 1 = 0 → u2 p 2 ≤ 4095 → u2 p 4 ≤ 4095 →
      (u.canStage 6 →
        exec (.winPlace 0 seq p) s = .next (u.editTaken seq 0x02 (.winPlace (u1 p 0) (u2 p 2) (u2 p 4)))) ∧
      (¬ u.canStage 6 → exec (.winPlace 0 seq p) s = .next (u.editFull seq 0x02))) ∧
    (p.length = 2 → u1 p 0 ≤ 7 → u1 p 1 ≤ 1 →
      (u.canStage 2 →
        exec (.winShow 0 seq p) s = .next (u.editTaken seq 0x03 (.winShow (u1 p 0) (u1 p 1 == 1)))) ∧
      (¬ u.canStage 2 → exec (.winShow 0 seq p) s = .next (u.editFull seq 0x03)))

/-- PAL_STAGE and FILL_STAGE (R37, R38, R43, R44). -/
def Obligations.PaletteAndFillStaged : Prop :=
  ∀ (s : State) (seq : SeqNo) (p : List Byte), let u := s.settle
    u.readyFor 0 seq →
    (p.length = 4 + 8 * u2 p 2 → palStageFits p →
      (u.canStage (4 + 8 * u2 p 2) →
        ∃ entries, entries.length = u2 p 2 ∧
          (∀ (k : Nat) (e : PalEntry), entries[k]? = some e → e.y.toNat = u2 p (4 + 8 * k) ∧
            e.cb.toNat = u2 p (4 + 8 * k + 2) ∧ e.cr.toNat = u2 p (4 + 8 * k + 4) ∧
            e.opacity.val = u2 p (4 + 8 * k + 6)) ∧
          exec (.palStage 0 seq p) s = .next (u.editTaken seq 0x04 (.palStage (u1 p 0) (u1 p 1) entries))) ∧
      (¬ u.canStage (4 + 8 * u2 p 2) → exec (.palStage 0 seq p) s = .next (u.editFull seq 0x04))) ∧
    (p.length = 6 → u2 p 0 ≤ 1023 → u2 p 2 ≤ 1023 → u2 p 4 ≤ 1023 →
      (u.canStage 6 →
        ∃ colour : Colour, colour.y.toNat = u2 p 0 ∧ colour.cb.toNat = u2 p 2 ∧ colour.cr.toNat = u2 p 4 ∧
          exec (.fillStage 0 seq p) s = .next (u.editTaken seq 0x05 (.fillStage colour))) ∧
      (¬ u.canStage 6 → exec (.fillStage 0 seq p) s = .next (u.editFull seq 0x05)))

/-- WIN_STAGE with its fields in range (R38, R39, R40): taken, the record joins the open set and the segment it names
gains a staged reference; refused by its segment checks or the capacity check (R37), nothing but the answer. -/
def Obligations.WindowStaged : Prop :=
  ∀ (s : State) (seq : SeqNo) (p : List Byte), let u := s.settle
    let id := u1 p 2
    u.readyFor 0 seq → p.length = 24 + u2 p 22 → winStageFits p →
    (Edit.winStage (u1 p 0) (windowOf p)).bytes = p.length ∧
    (id = 0 → u.canStage (24 + u2 p 22) →
      exec (.winStage 0 seq p) s = .next (u.editTaken seq 0x01 (.winStage (u1 p 0) (windowOf p)))) ∧
    (∀ g, id ≠ 0 → u.store.seg id = some g → g.state = .ready → u.canStage (24 + u2 p 22) →
      exec (.winStage 0 seq p) s = .next
        (({ u with store := u.store.retag id fun g => { g with staged := g.staged + 1 } }).editTaken seq 0x01
          (.winStage (u1 p 0) (windowOf p)))) ∧
    (id ≠ 0 → u.store.seg id = none →
      exec (.winStage 0 seq p) s = .next (u.answered 0 seq 0x01 .noSegment (be4 id))) ∧
    (∀ g, id ≠ 0 → u.store.seg id = some g → g.state = .loading →
      exec (.winStage 0 seq p) s = .next (u.answered 0 seq 0x01 .notReady (be4 id ++ [0]))) ∧
    (∀ g, id ≠ 0 → u.store.seg id = some g → g.state = .verifying →
      exec (.winStage 0 seq p) s = .next (u.answered 0 seq 0x01 .notReady (be4 id ++ [1]))) ∧
    (∀ g, id ≠ 0 → u.store.seg id = some g → g.state = .retiring →
      exec (.winStage 0 seq p) s = .next (u.answered 0 seq 0x01 .retiring (be4 id))) ∧
    ((id = 0 ∨ ∃ g, u.store.seg id = some g ∧ g.state = .ready) → ¬ u.canStage (24 + u2 p 22) →
      exec (.winStage 0 seq p) s = .next (u.editFull seq 0x01))

/-- The window record's layout and the palette entry's (sections 11.6 and 11.7): writing out what was read from a
payload whose fields are in range gives the payload back, but that an absent key's value is sent as 0. Fields are read
most significant byte first (R195), and each field stands at its byte position, both where it is read and where it is
written. -/
def Obligations.RecordLayouts : Prop :=
  (∀ (p : List Byte) (i : Nat), (∀ b, p[i]? = some b → u1 p i = b.toNat) ∧ u2 p i = 256 * u1 p i + u1 p (i + 1) ∧
    u4 p i = 65536 * u2 p i + u2 p (i + 2)) ∧
  (∀ p : List Byte, winStageFits p → p.length = 24 + u2 p 22 → let w := windowOf p
    (w.enabled = true ↔ u1 p 1 = 1) ∧ w.segment = (if u1 p 2 = 0 then none else some (u1 p 2)) ∧
    w.depth.bits = u1 p 3 ∧ w.srcWidth = u2 p 4 ∧ w.srcHeight = u2 p 6 ∧ w.originX = u2 p 8 ∧ w.originY = u2 p 10 ∧
    w.hScale.factor = u1 p 12 ∧ w.vScale.factor = u1 p 13 ∧ w.palette.val = u1 p 14 ∧ w.level.val = u1 p 15 ∧
    w.priority.val = u1 p 16 ∧ w.blinkOn = u1 p 17 ∧ w.blinkOff = u1 p 18 ∧
    (w.cond = .always ↔ u1 p 19 = 0) ∧ (w.cond = .signal ↔ u1 p 19 = 1) ∧ (w.cond = .noSignal ↔ u1 p 19 = 2) ∧
    w.key = (if u1 p 20 = 1 then some (u1 p 21) else none) ∧
    w.remap = (if u1 p 3 = 8 then none else some ((p.drop 24).map BitVec.toNat))) ∧
  (∀ (i : Nat) (w : WindowRec), let one := BitVec.ofNat 8
    let cond := match w.cond with
      | .always => 0
      | .signal => 1
      | .noSignal => 2
    let entries := w.remap.getD []
    windowBytes i w = [one i, if w.enabled then 1 else 0, one (w.segment.getD 0), one w.depth.bits] ++ be2 w.srcWidth ++
      be2 w.srcHeight ++ be2 w.originX ++ be2 w.originY ++ [one w.hScale.factor, one w.vScale.factor,
        one w.palette.val, one w.level.val, one w.priority.val, one w.blinkOn, one w.blinkOff, cond,
        if w.key = none then 0 else 1, one (w.key.getD 0)] ++ be2 entries.length ++ entries.map one) ∧
  (∀ (p : List Byte) (i : Nat), u2 p i ≤ 1023 → u2 p (i + 2) ≤ 1023 → u2 p (i + 4) ≤ 1023 → u2 p (i + 6) ≤ 16 →
    (palEntryOf p i).y.toNat = u2 p i ∧ (palEntryOf p i).cb.toNat = u2 p (i + 2) ∧
    (palEntryOf p i).cr.toNat = u2 p (i + 4) ∧ (palEntryOf p i).opacity.val = u2 p (i + 6)) ∧
  (∀ p : List Byte, u2 p 0 ≤ 1023 → u2 p 2 ≤ 1023 → u2 p 4 ≤ 1023 →
    (colourOf p).y.toNat = u2 p 0 ∧ (colourOf p).cb.toNat = u2 p 2 ∧ (colourOf p).cr.toNat = u2 p 4) ∧
  (∀ e : PalEntry, palEntryBytes e = be2 e.y.toNat ++ be2 e.cb.toNat ++ be2 e.cr.toNat ++ be2 e.opacity.val) ∧
  (∀ c : Colour, colourBytes c = be2 c.y.toNat ++ be2 c.cb.toNat ++ be2 c.cr.toNat) ∧
  (∀ p : List Byte, winStageFits p → p.length = 24 + u2 p 22 → (u1 p 20 = 0 → u1 p 21 = 0) →
    windowBytes (u1 p 0) (windowOf p) = p) ∧
  (∀ (p : List Byte) (i : Nat), i + 8 ≤ p.length → u2 p i ≤ 1023 → u2 p (i + 2) ≤ 1023 → u2 p (i + 4) ≤ 1023 →
    u2 p (i + 6) ≤ 16 → palEntryBytes (palEntryOf p i) = (p.drop i).take 8) ∧
  ∀ p : List Byte, p.length = 6 → u2 p 0 ≤ 1023 → u2 p 2 ≤ 1023 → u2 p 4 ≤ 1023 → colourBytes (colourOf p) = p

/-- A payload with a field outside its range is refused BAD_VALUE at the position of the first such field, and changes
nothing else (R166); the fields, ranges and positions are those of `Kind.valueRules`. -/
def Obligations.BadValueRefused : Prop :=
  ∀ (s : State) (k : Kind) (seq : SeqNo) (p : List Byte) (i pos : Nat) (holds : Prop), let u := s.settle
    u.readyFor 0 seq → k ≠ .segWrite → k ≠ .segClose → k.allowsLength p → p.length ≤ 8192 →
    (k.valueRules p)[i]? = some (pos, holds) → ¬ holds →
    (∀ j rule, j < i → (k.valueRules p)[j]? = some rule → rule.2) →
    exec (k.command 0 seq p) s = .next (u.answered 0 seq k.code .badValue (be2 pos))

/-- SET_COMMIT taken (R48, R51): the open set becomes the scheduled set. -/
def Obligations.CommitTaken : Prop :=
  (∀ u : State, u.projection = (u.comp.writeAll u.cset.openSet).wins) ∧
  ∀ (s : State) (seq : SeqNo) (p : List Byte), let u := s.settle
    let n := BitVec.ofNat 16 (u2 p 1)
    let d := (n - u.timing.frame.getD 0).toNat
    u.readyFor 0 seq → p.length = 3 → u1 p 0 ≤ 1 → u.cset.scheduled = none → u.cset.openSet ≠ [] →
    (u1 p 0 = 1 → 1 ≤ d ∧ d ≤ 1024) →
    (∀ i j, ¬ clashes u.projection i j) → (∀ i, ¬ unnamed u.projection i) →
    (∀ i, ¬ short u.store u.projection i) → (∀ y, lineLoad u.projection y ≤ 3072) →
    exec (.setCommit 0 seq p) s = .next
      (({ u with cset := { u.cset with
            openSet := []
            scheduled := some { edits := u.cset.openSet, target := if u1 p 0 = 1 then .atFrame n else .next } } }).answered
        0 seq 0x08 .ok
        (setCounts u.cset.openSet ++ (if u1 p 0 = 1 then 1 :: be2 (u2 p 1) ++ be2 d else [0, 0, 0, 0, 0])))

/-- SET_COMMIT refused, by the first of the steps of R48 that fails; nothing changes but the answer (R50). -/
def Obligations.CommitRefused : Prop :=
  ∀ (s : State) (seq : SeqNo) (p : List Byte), let u := s.settle
    let n := BitVec.ofNat 16 (u2 p 1)
    let d := (n - u.timing.frame.getD 0).toNat
    let data := be2 (u2 p 1) ++ be2 (u.timing.frame.getD 0).toNat ++ be2 d
    u.readyFor 0 seq → p.length = 3 → u1 p 0 ≤ 1 →
    (∀ w, u.cset.scheduled = some w →
      exec (.setCommit 0 seq p) s = .next (u.answered 0 seq 0x08 .pending
        (match w.target with
          | .next => [0, 0, 0]
          | .atFrame m => 1 :: be2 m.toNat))) ∧
    (u.cset.scheduled = none → u.cset.openSet = [] →
      exec (.setCommit 0 seq p) s = .next (u.answered 0 seq 0x08 .setEmpty [])) ∧
    (u.cset.scheduled = none → u.cset.openSet ≠ [] → u1 p 0 = 1 → d = 0 ∨ 32767 < d →
      exec (.setCommit 0 seq p) s = .next (u.answered 0 seq 0x08 .late data)) ∧
    (u.cset.scheduled = none → u.cset.openSet ≠ [] → u1 p 0 = 1 → 1024 < d → d ≤ 32767 →
      exec (.setCommit 0 seq p) s = .next (u.answered 0 seq 0x08 .far data)) ∧
    ∀ code payload, u.cset.scheduled = none → u.cset.openSet ≠ [] → (u1 p 0 = 1 → 1 ≤ d ∧ d ≤ 1024) →
      projectionRefusal u.store u.projection = some (.answer code payload) →
      exec (.setCommit 0 seq p) s = .next (u.answered 0 seq 0x08 code payload)

/-- Stride, required length and line load (R3, R4), and the projection checks (R47, R49) that rest on them: the first
that fails, over the enabled windows, and what its refusal carries. A segment that is in no directory record counts as
length 0: the model's choice for stores that no run reaches (log 18). -/
def Obligations.ProjectionChecks : Prop :=
  ([.d1, .d2, .d4, .d8] : List Depth).map Depth.bits = [1, 2, 4, 8] ∧
  ([.x1, .x2, .x4] : List Scale).map Scale.factor = [1, 2, 4] ∧
  (∀ w : WindowRec, w.stride = (w.srcWidth * w.depth.bits + 7) / 8 ∧ w.required = w.stride * w.srcHeight) ∧
  (∀ (wins : List WindowRec) (y : Nat), lineLoad wins y =
    ((wins.filter fun w => w.enabled ∧ w.originY ≤ y ∧ y < w.originY + w.srcHeight * w.vScale.factor).map
      fun w => (w.srcWidth * w.depth.bits + 7) / 8).sum) ∧
  (∀ (st : Store) (id : Nat), (∀ g, st.seg id = some g → st.lengthOf (some id) = g.length) ∧
    (st.seg id = none → st.lengthOf (some id) = 0)) ∧
  ∀ (st : Store) (wins : List WindowRec),
    (∀ i j w, lowest (fun i => ∃ j, clashes wins i j) i → lowest (clashes wins i) j → wins[i]? = some w →
      projectionRefusal st wins = some (.answer .priorityClash [byte i, byte j, byte w.priority.val])) ∧
    ((∀ i j, ¬ clashes wins i j) →
      (∀ i, lowest (unnamed wins) i → projectionRefusal st wins = some (.answer .noSegment [byte i])) ∧
      ((∀ i, ¬ unnamed wins i) →
        (∀ i w, lowest (short st wins) i → wins[i]? = some w →
          projectionRefusal st wins = some (.answer .segmentShort
            (byte i :: be4 w.required ++ be4 (st.lengthOf w.segment)))) ∧
        ((∀ i, ¬ short st wins i) →
          (∀ L m, peaksAt wins L m → 3072 < m →
            projectionRefusal st wins = some (.answer .lineLoad (be2 L ++ be2 m))) ∧
          ((∀ y, lineLoad wins y ≤ 3072) → projectionRefusal st wins = none))))

/-- SET_DISCARD (R60). -/
def Obligations.SetDiscarded : Prop :=
  (∀ (id : Nat) (e : Edit), namesSeg id e = true ↔ ∃ i w, e = .winStage i w ∧ w.segment = some id) ∧
  ∀ (s : State) (seq : SeqNo), let u := s.settle
    u.readyFor 0 seq →
    (u.cset.openSet = [] → exec (.setDiscard 0 seq []) s = .next (u.answered 0 seq 0x09 .setEmpty [])) ∧
    (u.cset.openSet ≠ [] →
      exec (.setDiscard 0 seq []) s = .next
        (({ u with cset := { u.cset with openSet := [] }, store := u.store.released u.cset.openSet }).answered
          0 seq 0x09 .ok (setCounts u.cset.openSet)))

/-- SET_WITHDRAW (R61). -/
def Obligations.SetWithdrawn : Prop :=
  ∀ (s : State) (seq : SeqNo), let u := s.settle
    u.readyFor 0 seq →
    (u.cset.scheduled = none →
      exec (.setWithdraw 0 seq []) s = .next (u.answered 0 seq 0x0A .noneScheduled
        (match u.cset.lastApp with
          | some f => 1 :: be2 f.toNat
          | none => [0, 0, 0]))) ∧
    ∀ w, u.cset.scheduled = some w →
      exec (.setWithdraw 0 seq []) s = .next
        (({ u with cset := { u.cset with scheduled := none }, store := u.store.released w.edits }).answered
          0 seq 0x0A .ok
          ((match w.target with
            | .next => [0, 0, 0]
            | .atFrame n => 1 :: be2 n.toNat) ++ [byte w.edits.length]))

/-- SET_APPLICATION (R54 to R58): at an open head, a set that is due is applied unless the part is RESETTING: edits
written, staged references released, active references moved in ascending window index (with what that frees, R87),
the set removed and recorded, APPLIED offered, and for a late one LATE_APPLY set and offered. Nothing else changes,
and nothing at all where no set is due. That the head stays open for its assembly timeouts is the model's choice (log
2), and that nothing happens with no head open, or no frame number, is too (log 4). -/
def Obligations.SetApplied : Prop :=
  (∀ (s : State) (f : FrameNo) (set : Scheduled), s.headOpen = true → s.status.resetting = none →
    s.timing.frame = some f → s.cset.scheduled = some set →
    (match set.target with
      | .next => True
      | .atFrame n => (f - n).toNat < 32768) →
    let written := { s with comp := s.comp.apply set.edits, store := s.store.released set.edits }
    let moved := (s.comp.wins.zip (s.comp.writeAll set.edits).wins).foldl
      (fun v w => v.windowMoved f w.1.segment w.2.segment) written
    let recorded := { moved with cset := { s.cset with scheduled := none, lastApp := some f } }
    let reported := recorded.offerNotice .applied (be2 f.toNat ++
      (match set.target with
        | .next => [0, 0, 0]
        | .atFrame n => 1 :: be2 n.toNat) ++ [byte set.edits.length])
    (set.target = .next ∨ set.target = .atFrame f → exec .setApplication s = .next reported) ∧
    ∀ n, set.target = .atFrame n → f ≠ n →
      exec .setApplication s = .next
        (State.offerNotice
          { reported with status := { reported.status with flags := { reported.status.flags with lateApply := true } } }
          .lateApply (be2 n.toNat ++ be2 f.toNat))) ∧
  ∀ s : State,
    (s.headOpen = false ∨ s.status.resetting ≠ none ∨ s.cset.scheduled = none ∨ s.timing.frame = none ∨
      ∃ f n edits, s.timing.frame = some f ∧ s.cset.scheduled = some { edits := edits, target := .atFrame n } ∧
        32768 ≤ (f - n).toNat) →
    exec .setApplication s = .next s

/-! ### The Bitmap Store -/

/-- SEG_CREATE (R71, R72): taken, with the first blocks of the free-block list, zeroed; or refused by the first check
that fails. -/
def Obligations.SegmentCreated : Prop :=
  ∀ (s : State) (seq : SeqNo) (p : List Byte), let u := s.settle
    let id := u4 p 0
    let length := u4 p 4
    let k := (length + 511) / 512
    u.readyFor 0 seq → p.length = 8 → 1 ≤ id → id ≤ 255 → 1 ≤ length → length ≤ 2097152 →
    (∀ g, u.store.seg id = some g →
      exec (.segCreate 0 seq p) s = .next (u.answered 0 seq 0x10 .exists_ (be4 id ++ [byte g.state.code]))) ∧
    (u.store.seg id = none → 64 ≤ u.store.dir.length →
      exec (.segCreate 0 seq p) s = .next (u.answered 0 seq 0x10 .directoryFull [])) ∧
    (u.store.seg id = none → u.store.dir.length < 64 → u.store.freeList.length < k →
      exec (.segCreate 0 seq p) s = .next (u.answered 0 seq 0x10 .noSpace (be2 k ++ be2 u.store.freeList.length))) ∧
    (u.store.seg id = none → u.store.dir.length < 64 → k ≤ u.store.freeList.length →
      ∃ st, exec (.segCreate 0 seq p) s = .next (({ u with store := st }).answered 0 seq 0x10 .ok
          (be4 id ++ be4 length ++ be2 k ++ be2 (u.store.freeList.length - k))) ∧
        st.freeList = u.store.freeList.drop k ∧ st.queue = u.store.queue ∧
        st.seg id = some { id := id, state := .loading, length := length, blocks := u.store.freeList.take k,
                           active := 0, staged := 0, queued := 0, check := none } ∧
        (∀ j, j ≠ id → st.seg j = u.store.seg j) ∧ st.dir.length = u.store.dir.length + 1 ∧
        ∀ a, st.mem.read a = if a / 512 ∈ u.store.freeList.take k then 0 else u.store.mem.read a)

/-- SEG_WRITE and SEG_CLOSE taken (R75, R77, R79): the operation joins the access queue, and the channel is EXECUTING
with its reservation; the segment's bytes do not change yet. -/
def Obligations.BulkQueued : Prop :=
  ∀ (s : State) (ch : Chan) (seq : SeqNo) (p : List Byte) (g : Segment), let u := s.settle
    let id := u4 p 0
    let executing := { u with
      pkt := { u.pkt with reserved := ch :: u.pkt.reserved }
      chn := u.chn.set ch { u.chan ch with state := .executing, last := seq, assembly := none } }
    ch ≠ 0 → u.readyFor ch seq → u.store.seg id = some g → g.state = .loading →
    (9 ≤ p.length → p.length ≤ 8192 → u4 p 4 + (p.length - 8) ≤ g.length →
      exec (.segWrite ch seq p) s = .next { executing with
        store := { u.store.retag id (fun g => { g with queued := g.queued + 1 }) with
          queue := u.store.queue ++ [.write id ch (u4 p 4) (p.drop 8)] } }) ∧
    (p.length = 8 →
      exec (.segClose ch seq p) s = .next { executing with
        store := { u.store.retag id (fun g => { g with state := .verifying, queued := g.queued + 1 }) with
          queue := u.store.queue ++ [.verify id ch (BitVec.ofNat 32 (u4 p 4))] } })

/-- SEG_WRITE and SEG_CLOSE refused when taken (R75, R76, R79): answered at once, nothing queued. -/
def Obligations.BulkRefused : Prop :=
  ∀ (s : State) (ch : Chan) (seq : SeqNo) (p : List Byte) (k : Kind), let u := s.settle
    let id := u4 p 0
    ch ≠ 0 → u.readyFor ch seq →
    (k = .segWrite ∧ 9 ≤ p.length ∧ p.length ≤ 8192) ∨ (k = .segClose ∧ p.length = 8) →
    (u.store.seg id = none →
      exec (k.command ch seq p) s = .next (u.answered ch seq k.code .noSegment (be4 id))) ∧
    (∀ g, u.store.seg id = some g → g.state = .verifying →
      exec (k.command ch seq p) s = .next (u.answered ch seq k.code .busy (be4 id ++ [1, byte g.queued]))) ∧
    (∀ g, u.store.seg id = some g → g.state = .ready →
      exec (k.command ch seq p) s = .next (u.answered ch seq k.code .closed (be4 id ++ [2]))) ∧
    (∀ g, u.store.seg id = some g → g.state = .retiring →
      exec (k.command ch seq p) s = .next (u.answered ch seq k.code .closed (be4 id ++ [3]))) ∧
    ∀ g, u.store.seg id = some g → g.state = .loading → k = .segWrite → g.length < u4 p 4 + (p.length - 8) →
      exec (k.command ch seq p) s = .next (u.answered ch seq k.code .writeRange (be4 g.length))

/-- SEG_WRITE_COMPLETION (R77): the bytes land through the block list, every other byte of memory reads as before, and
the channel's reservation is filled with OK. Byte `a` of a segment stands at 512 x (entry floor(a / 512) of its block
list) + a mod 512 of the memory (R69); a byte that memory does not list reads 0 (log 10). -/
def Obligations.WriteLands : Prop :=
  (∀ (blocks : List Nat) (a : Nat), segAddr blocks a = (blocks[a / 512]?).map fun b => 512 * b + a % 512) ∧
  (∀ (mem : Memory) (blocks : List Nat) (a addr : Nat), segAddr blocks a = some addr →
    segRead mem blocks a = mem.read addr) ∧
  (∀ (mem : Memory) (a : Nat), mem.wf = true →
    (∀ v, (a, v) ∈ mem → mem.read a = v) ∧ ((∀ c ∈ mem, c.1 ≠ a) → mem.read a = 0)) ∧
  ∀ (s : State) (id : Nat) (ch : Chan) (offset : Nat) (data : List Byte) (rest : List StoreOp) (g : Segment),
    let u := s.settle
    let packet := u.packet ch (u.chan ch).last 0x11 .ok (be4 id ++ be4 offset ++ be2 data.length)
    u.store.queue = .write id ch offset data :: rest → u.store.seg id = some g →
    ∃ mem, exec .segWriteCompletion s = .next { u with
        store := { u.store.retag id (fun g => { g with queued := g.queued - 1 }) with mem := mem, queue := rest }
        pkt := { u.pkt with
          reserved := u.pkt.reserved.erase ch
          filled := u.pkt.filled ++ [{ packet := packet, marked := false, fillTime := u.pkt.fillClock }]
          fillClock := u.pkt.fillClock + 1 }
        chn := u.chn.set ch { u.chan ch with state := .idle, cache := some packet } } ∧
      (∀ a, (∀ i < data.length, segAddr g.blocks (offset + i) ≠ some a) → mem.read a = u.store.mem.read a) ∧
      (u.memoryLaw = true → g.blocks.Nodup → offset + data.length ≤ 512 * g.blocks.length →
        ∀ i v, data[i]? = some v → segRead mem g.blocks (offset + i) = v)

/-- VERIFY_COMPLETION (R80, R81): READY with the computed value on a match, with SEGMENT_READY offered; LOADING
without one on a mismatch. The CRC-32 is that of R80: a register that begins at 0xFFFFFFFF, takes each byte reflected,
bit by bit with polynomial 0x04C11DB7, and is reflected and inverted at the end. -/
def Obligations.VerifyCompletes : Prop :=
  let register := fun bs : List Byte => (crc32 bs ^^^ 0xFFFFFFFF).reverse
  register [] = 0xFFFFFFFF ∧
  (∀ (bs : List Byte) (b : Byte), register (bs ++ [b]) =
    (List.range 8).foldl (fun c _ => if c.msb then (c <<< 1) ^^^ 0x04C11DB7 else c <<< 1)
      (register bs ^^^ (b.reverse.setWidth 32 <<< 24))) ∧
  ∀ (s : State) (id : Nat) (ch : Chan) (carried : BitVec 32) (rest : List StoreOp) (g : Segment),
    let u := s.settle
    let computed := crc32 ((List.range g.length).map fun a => segRead u.store.mem g.blocks a)
    let filledWith := fun (state : SegState) (check : Option (BitVec 32)) (packet : List Byte) =>
      { u with
        store := { u.store.retag id
          (fun g => { g with state := state, queued := g.queued - 1, check := check }) with queue := rest }
        pkt := { u.pkt with
          reserved := u.pkt.reserved.erase ch
          filled := u.pkt.filled ++ [{ packet := packet, marked := false, fillTime := u.pkt.fillClock }]
          fillClock := u.pkt.fillClock + 1 }
        chn := u.chn.set ch { u.chan ch with state := .idle, cache := some packet } }
    let report := be4 id ++ be4 g.length ++ be4 computed.toNat
    u.store.queue = .verify id ch carried :: rest → u.store.seg id = some g →
    (computed = carried →
      exec .verifyCompletion s = .next ((filledWith .ready (some computed)
        (u.packet ch (u.chan ch).last 0x12 .ok report)).offerNotice .segmentReady report)) ∧
    (computed ≠ carried →
      exec .verifyCompletion s = .next (filledWith .loading none
        (u.packet ch (u.chan ch).last 0x12 .checkMismatch (be4 id ++ be4 carried.toNat ++ be4 computed.toNat))))

/-- SEG_DELETE (R83, R84): refused by the first check that fails; freed at once where no window names the segment; else
RETIRING. -/
def Obligations.SegmentDeleted : Prop :=
  ∀ (s : State) (seq : SeqNo) (p : List Byte), let u := s.settle
    let id := u4 p 0
    u.readyFor 0 seq → p.length = 4 →
    (u.store.seg id = none →
      exec (.segDelete 0 seq p) s = .next (u.answered 0 seq 0x13 .noSegment (be4 id))) ∧
    ∀ g, u.store.seg id = some g →
      (g.state = .verifying ∨ 0 < g.queued →
        exec (.segDelete 0 seq p) s = .next (u.answered 0 seq 0x13 .busy
          (be4 id ++ [byte g.state.code, byte g.queued]))) ∧
      (g.state ≠ .verifying → g.queued = 0 → 0 < g.staged →
        exec (.segDelete 0 seq p) s = .next (u.answered 0 seq 0x13 .inUse [byte g.staged])) ∧
      (g.state = .retiring → g.queued = 0 → g.staged = 0 →
        exec (.segDelete 0 seq p) s = .next (u.answered 0 seq 0x13 .retiring (be4 id))) ∧
      (g.state = .loading ∨ g.state = .ready → g.queued = 0 → g.staged = 0 → g.active = 0 →
        exec (.segDelete 0 seq p) s = .next
          (({ u with store := { u.store with
                freeList := u.store.freeList ++ g.blocks
                dir := u.store.dir.filter fun h => h.id != id } }).answered 0 seq 0x13 .ok
            (be4 id ++ [0] ++ be2 (u.store.freeList.length + g.blocks.length)))) ∧
      (g.state = .loading ∨ g.state = .ready → g.queued = 0 → g.staged = 0 → 0 < g.active →
        exec (.segDelete 0 seq p) s = .next
          (({ u with store := u.store.retag id fun g => { g with state := .retiring } }).answered 0 seq 0x13 .ok
            (be4 id ++ [1] ++ be2 g.active)))

/-- The release of the last active reference of a RETIRING segment frees it, with its flag and notice (R67, R87); any
other release only lowers the count (R86). -/
def Obligations.LastReferenceFrees : Prop :=
  ∀ (s : State) (f : FrameNo) (id : Nat) (g : Segment), s.store.seg id = some g →
    (g.state = .retiring → g.active = 1 →
      s.activeRelease f id =
        (({ s with
            store := { s.store with
              freeList := s.store.freeList ++ g.blocks
              dir := s.store.dir.filter fun h => h.id != id }
            status := { s.status with flags := { s.status.flags with segmentReleased := true } } }).offerNotice
          .segmentReleased (be4 id ++ be2 g.blocks.length ++ be2 f.toNat))) ∧
    (g.state ≠ .retiring ∨ 2 ≤ g.active →
      s.activeRelease f id = { s with store := s.store.retag id fun g => { g with active := g.active - 1 } })

/-- Only a segment's creation and a write's completion change the bitmap memory (R66); a marker may bring a
SEG_CREATE, and a hard reset clears the memory (log 10). The law of the channel records (R140, kept by every step:
ChannelAndQueueLawsKept) rules out an assembly without payloads, which the single fragment of another message could
complete as a SEG_CREATE. -/
def Obligations.MemoryChangesOnlyByStoring : Prop :=
  ∀ (i : Instr) (s t : State), s.channelLaw = true → exec i s = .next t →
    (match i with
      | .hardReset _ => False
      | .lineMarker _ _ _ => False
      | .inputFrameHead _ _ _ => False
      | .segCreate _ _ _ => False
      | .segWriteCompletion => False
      | _ => True) →
    ∀ a, t.store.mem.read a = s.store.mem.read a

/-! ### The Timing Unit -/

/-- A FRAME_HEAD marker in NO_SIGNAL and in HOLDOVER (R107, R116, R120): ACQUIRING or REJOINING, the change reported,
and the frame that the marker begins followed from here with the range in force (R99). No other marker has an effect
there. In ACQUIRING, LOCKED and REJOINING the marker completes a line, judges the frame it ends, then begins the next
(R97, R108, R111, R117). The packet of the completed line is handed on before the head, or after it where `headFirst`
says so and messages are still taken after the head (R124, R128; log 5); that the line's own emission comes before a
change of lock state by faults is the model's choice (log 26). Where the head locks an ACQUIRING part, the change comes
first and the last line is completed, and so emitted, after it (R109); its packet is handed on after that (R128), before
or after the next frame is begun. At a relock in REJOINING a packet handed on after the head is taken in LOCKED, with the
last generated number still current (R119, R192; log 5). -/
def Obligations.InputHeadEnters : Prop :=
  ∀ (s : State) (data : List DataWord) (refClks : Nat) (headFirst : Bool), let u := s.settle
    (u.timing.lock = .noSignal →
      exec (.inputFrameHead data refClks headFirst) s = .next (State.headBegun
        ((({ u with timing :=
            { lock := .acquiring, recorded := none, candidate := none, matchCount := 0, faultCount := 0,
              holdoverCount := 0, frame := none, absence := true, gen := none } }).raise .lockChange).offerNotice
          .lockState [0, 1, 0, 0, 0, 0]))) ∧
    (u.timing.lock = .holdover →
      exec (.inputFrameHead data refClks headFirst) s = .next (State.headBegun
        ((({ u with timing := { u.timing with
              lock := .rejoining, candidate := none, matchCount := 0, absence := true } }).raise .lockChange).offerNotice
          .lockState ([3, 4, 0] ++ presentBe2 u.timing.frame)))) ∧
    (∀ w, w ≠ 0x26C → u.timing.lock = .noSignal ∨ u.timing.lock = .holdover →
      exec (.lineMarker w data refClks) s = .next u) ∧
    ∀ fr, u.follows ∨ u.timing.lock = .rejoining → u.link.inFrame = some fr →
      let shape := (fr.withLine data).shape? u.pkt.inRange (fr.refClks + refClks)
      let locks := u.timing.lock = .acquiring ∧ 1 ≤ u.timing.matchCount ∧
        ∃ c sh, u.timing.candidate = some c ∧ shape = some sh ∧ c.geometry = sh.geometry
      let v := (u.completeLine data).1.settle
      let judged := fun x : State => (x.judgeFrame shape).headBegun
      let last := (u.judgeFrame shape).completeLine data
      (locks → headFirst = false →
        exec (.inputFrameHead data refClks headFirst) s = .next (last.1.handed last.2).headBegun) ∧
      (locks → headFirst = true →
        exec (.inputFrameHead data refClks headFirst) s = .next (last.1.headBegun.handed last.2)) ∧
      (¬ locks → (u.completeLine data).2 = none →
        exec (.inputFrameHead data refClks headFirst) s = .next (judged v)) ∧
      (¬ locks → ∀ f, (u.completeLine data).2 = some f →
        (headFirst = false → exec (.inputFrameHead data refClks headFirst) s = .next (judged (v.fragment f))) ∧
        (headFirst = true → (judged v).takesLines = true →
          exec (.inputFrameHead data refClks headFirst) s = .next ((judged v).fragment f)) ∧
        (headFirst = true → (judged v).takesLines = false →
          exec (.inputFrameHead data refClks headFirst) s = .next (judged (v.fragment f))))

/-- A valid frame (R100, R101), and the geometry, pattern and duration it gives. -/
def Obligations.ValidFrame : Prop :=
  ∀ (fr : InFrame) (r : MgmtRange) (duration : Nat) (sh : FrameShape),
    fr.shape? r duration = some sh ↔
      fr.headless = false ∧ fr.decodable = true ∧
      (∀ l ∈ fr.lines, l.2 = sh.geometry.width) ∧ 720 ≤ sh.geometry.width ∧ sh.geometry.width ≤ 4096 ∧
      sh.geometry.activeLines = (fr.lines.filter fun l => l.1 == .active).length ∧
      16 ≤ sh.geometry.activeLines ∧ sh.geometry.activeLines ≤ 4096 ∧
      sh.geometry.totalLines = fr.lines.length ∧ fr.lines.length ≤ 4200 ∧
      (∃ w rest, fr.lines = (.frameHead, w) :: rest ∧ ∀ l ∈ rest, l.1 = .blank ∨ l.1 = .active) ∧
      (∀ i < r.count, ∃ w, fr.lines[r.first + i]? = some (.blank, w)) ∧
      sh.pattern = fr.lines.map (·.1) ∧ sh.period = duration

/-- A completed frame judged in ACQUIRING or REJOINING (R108, R109, R117), and in LOCKED (R102, R111, R112, R121): good,
faulted, and the third fault. -/
def Obligations.CompletedFrameJudged : Prop :=
  ∀ (s : State) (shape : Option FrameShape),
    (s.timing.lock = .acquiring ∨ s.timing.lock = .rejoining →
      (shape = none →
        s.judgeFrame shape = { s with timing := { s.timing with candidate := none, matchCount := 0 } }) ∧
      ∀ sh, shape = some sh →
        ((∀ c, s.timing.candidate = some c → c.geometry ≠ sh.geometry) →
          s.judgeFrame shape = { s with timing := { s.timing with candidate := some sh, matchCount := 1 } }) ∧
        (∀ c, s.timing.candidate = some c → c.geometry = sh.geometry → s.timing.matchCount = 0 →
          s.judgeFrame shape = { s with timing := { s.timing with candidate := some sh, matchCount := 1 } }) ∧
        (∀ c, s.timing.candidate = some c → c.geometry = sh.geometry → 1 ≤ s.timing.matchCount →
          s.judgeFrame shape =
            (({ s with timing := { s.timing with
                  lock := .locked, recorded := some sh, candidate := none, matchCount := 0, faultCount := 0,
                  holdoverCount := 0 } }).raise .lockChange).offerNotice .lockState
              ([byte s.timing.lock.code, 2, 1] ++ presentBe2 s.timing.frame))) ∧
    ∀ rec : FrameShape, s.timing.lock = .locked → s.timing.recorded = some rec →
      (∀ sh, shape = some sh → sh.geometry = rec.geometry →
        s.judgeFrame shape = { s with timing := { s.timing with faultCount := 0, recorded := some sh } }) ∧
      ((∀ sh, shape = some sh → sh.geometry ≠ rec.geometry) →
        let faulted := ({ s with timing := { s.timing with
          faultCount := s.timing.faultCount + 1 } }).raise .geometryFault
        (s.timing.faultCount < 2 → s.judgeFrame shape = faulted) ∧
        (2 ≤ s.timing.faultCount → s.status.params.holdoverLimit = 0 →
          s.judgeFrame shape = faulted.enterNoSignal .fault) ∧
        (2 ≤ s.timing.faultCount → s.status.params.holdoverLimit ≠ 0 →
          s.judgeFrame shape =
            (({ faulted with
                link := { s.link with inFrame := none }
                timing := { s.timing with
                  lock := .holdover, faultCount := s.timing.faultCount + 1, holdoverCount := 0, absence := false
                  gen := some { shape := rec, next := 0, ownHead := true } } }).raise .lockChange).offerNotice
              .lockState ([2, 3, 3] ++ presentBe2 s.timing.frame)))

/-- ABSENCE_EXPIRY (R105, R106, R110, R113, R117): the interval, and what the expiry does in each lock state in which
the timer runs. With the timer stopped, as it is in NO_SIGNAL and HOLDOVER, or its interval not yet passed, the timer
does not expire and the command changes nothing but for the rest of an open head (log 4). In LOCKED the fault count
stays (log 24), a frame whose open line is line 0 is taken over by a head of the generator's own (log 12), and a
generator still running after a relock goes on (log 13): what R113 leaves open there the model has deduced. -/
def Obligations.AbsenceExpires : Prop :=
  ∀ (s : State) (n : Nat), let u := s.settle
    (u.timing.absence = false ∨ n < u.absenceInterval ∨ u.timing.lock = .noSignal ∨ u.timing.lock = .holdover →
      exec (.absenceExpiry n) s = .next u) ∧
    (u.timing.lock = .acquiring → u.timing.candidate = none → u.absenceInterval = 16384) ∧
    (∀ sh, u.timing.lock = .acquiring ∨ u.timing.lock = .rejoining → u.timing.candidate = some sh →
      u.absenceInterval = u.status.params.lossInterval * sh.period / sh.geometry.totalLines) ∧
    (∀ sh, u.timing.lock = .locked ∨ (u.timing.lock = .rejoining ∧ u.timing.candidate = none) →
      u.timing.recorded = some sh →
      u.absenceInterval = u.status.params.lossInterval * sh.period / sh.geometry.totalLines) ∧
    (u.timing.absence = true → u.absenceInterval ≤ n →
    (u.timing.lock = .acquiring → exec (.absenceExpiry n) s = .next (u.enterNoSignal .absence)) ∧
    (u.timing.lock = .locked ∨ u.timing.lock = .rejoining → u.status.params.holdoverLimit = 0 →
      exec (.absenceExpiry n) s = .next (u.enterNoSignal .absence)) ∧
    (u.timing.lock = .rejoining → u.status.params.holdoverLimit ≠ 0 →
      exec (.absenceExpiry n) s = .next
        ((({ u with
            link := { u.link with inFrame := none }
            timing := { u.timing with
              lock := .holdover, candidate := none, matchCount := 0, absence := false } }).raise .lockChange).offerNotice
          .lockState ([4, 3, 2] ++ presentBe2 u.timing.frame))) ∧
    (∀ g, u.timing.lock = .locked → u.status.params.holdoverLimit ≠ 0 → u.timing.gen = some g →
      exec (.absenceExpiry n) s = .next
        ((({ u with
            link := { u.link with inFrame := none }
            timing := { u.timing with
              lock := .holdover, holdoverCount := 0, absence := false } }).raise .lockChange).offerNotice
          .lockState ([2, 3, 2] ++ presentBe2 u.timing.frame))) ∧
    ∀ sh fr, u.timing.lock = .locked → u.status.params.holdoverLimit ≠ 0 → u.timing.recorded = some sh →
      u.timing.gen = none → u.link.inFrame = some fr →
      exec (.absenceExpiry n) s = .next
        ((({ u with
            link := { u.link with inFrame := none }
            timing := { u.timing with
              lock := .holdover, holdoverCount := 0, absence := false
              gen := some
                (if fr.headless = true ∨ sh.geometry.totalLines ≤ fr.lines.length then
                  { shape := sh, next := 0, ownHead := true }
                else { shape := sh, next := fr.lines.length, ownHead := false }) } }).raise .lockChange).offerNotice
          .lockState ([2, 3, 2] ++ presentBe2 u.timing.frame)))

/-- An entry to NO_SIGNAL (R118, R120, R139, R188, R189): silence, the Timing Unit's items absent or 0, no window
shown, and a waiting reset takes effect before the change is reported. A line being emitted ends where it stands: the
model's own mark `link.cut` says so (log 17). Without a reset every window keeps its record and its blink phase (R18). The report is LOCK_CHANGE and a LOCK_STATE notice
(the state left, NO_SIGNAL, the cause, no frame number) at the tail of what the reset leaves of the queue: all of it
without a reset, all but the marked OK for OVERLAY, nothing for FULL. A reset of either scope puts window records,
palettes and fill colour at their reset values (R21, R32), and neither changes the ranges (R139). The latch
of R16, which no rule names here, stays (log 23). -/
def Obligations.NoSignalEntered : Prop :=
  ∀ (s : State) (cause : LockCause), let t := s.enterNoSignal cause
    t.timing = { lock := .noSignal, recorded := none, candidate := none, matchCount := 0, faultCount := 0,
                 holdoverCount := 0, frame := none, absence := false, gen := none } ∧
    t.link = { s.link with inFrame := none, vout := .silent, cut := decide (s.link.vout ≠ .silent) } ∧
    (∀ sl ∈ t.comp.slots, sl.shown = false) ∧
    t.comp.latch = s.comp.latch ∧ t.status.flags.lockChange = true ∧ t.status.resetting = none ∧
    t.status.params = s.status.params ∧ t.status.address = s.status.address ∧ t.headOpen = s.headOpen ∧
    t.pending = s.pending ∧ t.store.mem = s.store.mem ∧
    t.pkt.inRange = s.pkt.inRange ∧ t.pkt.outRange = s.pkt.outRange ∧
    ([.input, .matched, .absence, .fault, .limit] : List LockCause).map LockCause.code = [0, 1, 2, 3, 4] ∧
    (s.status.resetting ≠ none → t.comp.slots = WinSlot.resetAll ∧ t.comp.fill = ⟨64, 512, 512⟩ ∧
      t.comp.palettes = List.replicate 4 (List.replicate 256 ⟨64, 512, 512, 0⟩) ∧
      t.cset = { openSet := [], scheduled := none, lastApp := none }) ∧
    (∀ (left : List Entry) (held : Nat) (flags : Flags),
      (s.status.resetting = none ∧ left = s.pkt.filled ∧ held = left.length + s.pkt.reserved.length ∧
          flags = s.status.flags) ∨
        (s.status.resetting = some .overlay ∧ left = s.pkt.filled.filter (fun e => !e.marked) ∧
          held = left.length + s.pkt.reserved.length ∧ flags = s.status.flags) ∨
        (s.status.resetting = some .full ∧ left = [] ∧ held = 0 ∧ flags = Flags.clear) →
      let changed := { flags with lockChange := true }
      let notice := packetOf s.status.address 0 0 0x40 .ok 0 [1, byte s.timing.lock.code, 0, byte cause.code, 0, 0, 0]
      (s.status.params.noticeMask % 2 = 1 → held < 16 → t.status.flags = changed ∧
        t.pkt.filled = left ++ [{ packet := notice, marked := false, fillTime := s.pkt.fillClock }]) ∧
      (s.status.params.noticeMask % 2 = 1 → 16 ≤ held →
        t.status.flags = { changed with noticeDropped := true } ∧ t.pkt.filled = left) ∧
      (s.status.params.noticeMask % 2 = 0 → t.status.flags = changed ∧ t.pkt.filled = left)) ∧
    (s.status.resetting = none → t.comp.slots = (s.comp.slots.map fun sl => { sl with shown := false }) ∧
      t.comp.wins = s.comp.wins ∧ t.comp.palettes = s.comp.palettes ∧
      t.comp.fill = s.comp.fill ∧ t.cset = s.cset ∧ t.store = s.store ∧ t.chn = s.chn ∧
      t.status.lastReset = s.status.lastReset ∧ t.pkt.reserved = s.pkt.reserved) ∧
    (s.status.resetting = some .overlay → t.status.lastReset = .soft .overlay .noSignal ∧
      t.store = { s.store with
        freeList := s.store.freeList ++ (s.store.dir.filter fun g => g.state == .retiring).flatMap (·.blocks)
        dir := (s.store.dir.filter fun g => g.state != .retiring).map fun g => { g with active := 0, staged := 0 } } ∧
      t.chn = s.chn ∧
      t.pkt.reserved = s.pkt.reserved) ∧
    (s.status.resetting = some .full → t.status.lastReset = .soft .full .noSignal ∧
      t.store = { s.store with freeList := List.range 4096, dir := [], queue := [] } ∧
      (∀ ch, t.chan ch = { state := .idle, last := 15, assembly := none, cache := none }) ∧ t.pkt.reserved = [] ∧
      t.status.flags = { Flags.clear with lockChange := true } ∧
      t.pkt.filled.map (·.packet) =
        (if s.status.params.noticeMask % 2 = 1 then
          [packetOf s.status.address 0 0 0x40 .ok 0
            [1, byte s.timing.lock.code, 0, byte cause.code, 0, 0, 0]]
        else []))

/-- A generated frame head (R114, R115, R119): the holdover count rises; at the limit the output ends, and otherwise the
head is emitted and handed on. After a relock the generator, still running in LOCKED, produces no further head (R117),
and a generator that is stopped produces no line (R104): the command then changes nothing but for the rest of an open
head, and so does HOLDOVER_LIMIT_REACHED where no head is due or the limit is not reached (log 4). -/
def Obligations.GeneratedHead : Prop :=
  (∀ s : State, let u := s.settle
    (u.timing.gen = none → exec .generatorLineBegin s = .next u ∧ exec .holdoverLimitReached s = .next u) ∧
    ∀ g, u.timing.gen = some g →
      (u.timing.lock ≠ .holdover → u.timing.lock ≠ .rejoining → g.next = 0 → exec .generatorLineBegin s = .next u) ∧
      ((u.timing.lock ≠ .holdover ∧ u.timing.lock ≠ .rejoining) ∨ g.next ≠ 0 →
        exec .holdoverLimitReached s = .next u)) ∧
  ∀ (s : State) (g : Generator) (sh : FrameShape), let u := s.settle
    let count := min 65535 (u.timing.holdoverCount + 1)
    let limit := u.status.params.holdoverLimit
    let f := match u.timing.frame with
      | some c => c + 1
      | none => 0
    u.timing.lock = .holdover ∨ u.timing.lock = .rejoining → u.timing.gen = some g → g.next = 0 →
    u.timing.recorded = some sh →
    (limit = 0 ∨ (limit ≤ 65534 ∧ limit ≤ count) →
      exec .generatorLineBegin s = .next (u.enterNoSignal .limit) ∧
      exec .holdoverLimitReached s = .next (u.enterNoSignal .limit)) ∧
    (limit = 65535 ∨ count < limit →
      exec .holdoverLimitReached s = .next u ∧
      exec .generatorLineBegin s = .next { u with
        timing := { u.timing with
          holdoverCount := count, frame := some f
          gen := some { shape := sh, next := if 1 < sh.geometry.totalLines then 1 else 0, ownHead := true } }
        link := { u.link.emits .frameHead (withFrameNumber f (List.replicate sh.geometry.width ⟨0x040, 0x200⟩))
          .generator (some 0) with nextY := 0 }
        comp := u.comp.atHead u.timing.lock
        pkt := { u.pkt with outRange := ⟨u.status.params.mgmtFirstLine, u.status.params.mgmtLineCount⟩ }
        chn := u.chn.map fun r => { r with assembly := r.assembly.map fun a => { a with heads := a.heads + 1 } }
        headOpen := true })

/-- Any other generated line (R114, R131): an ACTIVE line composed on the fill base, a BLANK line empty, or free
inside the outbound range; line k begins floor(k x P / T) REF_CLK periods after a head of the generator's own. That
the lines of a frame which the generator only completes carry no offset (log 24), and that a frame keeps the shape it
began with (log 14), is deduced. -/
def Obligations.GeneratedLine : Prop :=
  ∀ (s : State) (g : Generator), let u := s.settle
    let offset := if g.ownHead then some (g.next * g.shape.period / g.shape.geometry.totalLines) else none
    let v := { u with timing := { u.timing with
      gen := some { g with next := if g.next + 1 < g.shape.geometry.totalLines then g.next + 1 else 0 } } }
    u.timing.gen = some g → g.next ≠ 0 →
    (g.shape.pattern[g.next]? = some .active →
      exec .generatorLineBegin s = .next { v with
        link := { u.link.emits .active (u.composeLine u.link.nextY (fillBase u.comp.fill g.shape.geometry.width))
          .generator offset with nextY := u.link.nextY + 1 } }) ∧
    (g.shape.pattern[g.next]? = some .blank →
      ¬ (u.pkt.outRange.first ≤ g.next ∧ g.next < u.pkt.outRange.first + u.pkt.outRange.count) →
      exec .generatorLineBegin s = .next { v with
        link := u.link.emits .blank (List.replicate g.shape.geometry.width ⟨0x040, 0x200⟩) .generator offset }) ∧
    (g.shape.pattern[g.next]? = some .blank →
      u.pkt.outRange.first ≤ g.next → g.next < u.pkt.outRange.first + u.pkt.outRange.count →
      exec .generatorLineBegin s = .next (v.emitFree g.shape.geometry.width .generator offset)) ∧
    ∀ x, (fillBase u.comp.fill g.shape.geometry.width)[x]? =
      if x < g.shape.geometry.width then
        some ⟨u.comp.fill.y, if x % 2 = 0 then u.comp.fill.cb else u.comp.fill.cr⟩
      else none

/-- A line completed in ACQUIRING or LOCKED by a marker that goes on with its frame (R96, R103, R9): emitted whole,
one line late; an ACTIVE line of a composed frame composed, every other line but a management line and a frame head
unchanged. In REJOINING a completed line is recorded and not emitted, and a management line is examined and its packet
taken (R117, R133). The marker at which 4200 lines are complete judges the frame as invalid and begins a headless one,
unless the lock is lost there (R97, R111, R112; log 6). -/
def Obligations.LineRelayed : Prop :=
  (∀ (s : State) (w : Lane) (data : List DataWord) (n : Nat) (fr : InFrame), let u := s.settle
    let link' := { u.link with inFrame := some (fr.afterLine data w n) }
    u.follows → u.link.inFrame = some fr → fr.goesOn w →
    (∀ x, fr.openType = .unknown x →
      exec (.lineMarker w data n) s = .next { u with link := link'.emits (.unknown x) data .input none }) ∧
    (fr.openType = .blank → fr.headless = true ∨ u.pkt.inRange.holds fr.lines.length = false →
      exec (.lineMarker w data n) s = .next { u with link := link'.emits .blank data .input none }) ∧
    (fr.openType = .active → fr.headless = true →
      exec (.lineMarker w data n) s = .next { u with link := link'.emits .active data .input none }) ∧
    (fr.openType = .active → fr.headless = false → u.comp.latch = .acquiring ∨ u.comp.latch = .noSignal →
      exec (.lineMarker w data n) s = .next { u with
        link := { link'.emits .active data .input none with nextY := u.link.nextY + 1 } }) ∧
    (fr.openType = .active → fr.headless = false →
      u.comp.latch = .locked ∨ u.comp.latch = .holdover ∨ u.comp.latch = .rejoining →
      exec (.lineMarker w data n) s = .next { u with
        link := { link'.emits .active (u.composeLine u.link.nextY data) .input none with
          nextY := u.link.nextY + 1 } })) ∧
  (∀ (s : State) (w : Lane) (data : List DataWord) (n : Nat) (fr : InFrame), let u := s.settle
    let held := u.framed (fr.withLine data)
    let seen := if packetFails (packetStream data) then held.raise .packetCrc else held
    let disposed := disposition u.status.address (packetStream data)
    u.timing.lock = .rejoining → u.link.inFrame = some fr → fr.goesOn w →
    (fr.headless = true ∨ fr.openType ≠ .blank ∨ u.pkt.inRange.holds fr.lines.length = false →
      exec (.lineMarker w data n) s = .next (u.framed (fr.afterLine data w n))) ∧
    (fr.headless = false → fr.openType = .blank → u.pkt.inRange.holds fr.lines.length = true →
      (disposed = .free ∨ disposed = .forwarded →
        exec (.lineMarker w data n) s = .next (seen.framed (fr.afterLine data w n))) ∧
      ∀ f, disposed = .consumed f ∨ disposed = .broadcast f →
        exec (.lineMarker w data n) s = .next ((seen.fragment f).framed (fr.afterLine data w n)))) ∧
  (∀ (s : State) (w : Lane) (data : List DataWord) (n : Nat) (fr : InFrame), let u := s.settle
    let v := ((u.completeLine data).1.handed (u.completeLine data).2).judgeFrame none
    u.follows ∨ u.timing.lock = .rejoining → u.link.inFrame = some fr → w ≠ 0x26C → 4200 ≤ fr.lines.length + 1 →
    (v.timing.lock = .noSignal ∨ v.timing.lock = .holdover → exec (.lineMarker w data n) s = .next v) ∧
    (v.timing.lock ≠ .noSignal → v.timing.lock ≠ .holdover →
      exec (.lineMarker w data n) s = .next (v.framed
        { headless := true, lines := [], openType := LineType.ofWord w, decodable := false, refClks := 0 }))) ∧
  (∀ (fr : InFrame) (data : List DataWord), fr.withLine data = { fr with
    lines := fr.lines ++ [(fr.openType, data.length)]
    decodable := fr.decodable || (fr.openType == .frameHead && (frameNumber? data).isSome) }) ∧
  ∀ w : Lane, LineType.ofWord w =
    if w = 0x26C then .frameHead else if w = 0x2B4 then .blank else if w = 0x31C then .active else .unknown w

/-- A FRAME_HEAD line completed in ACQUIRING or LOCKED (R97, R103, R117, R119): the output frame head, with its number
in word 0, handed to the compositor, the Packet Unit and the Channel Unit; a generator still running stops there. A
line without data words has no word 0: it goes out as it came, without its number, which is the model's choice (log 29).
-/
def Obligations.FrameHeadRelayed : Prop :=
  (∀ (f : FrameNo) (word : DataWord) (rest : List DataWord), withFrameNumber f (word :: rest) =
    ⟨BitVec.ofNat 10 (0x100 + f.toNat / 256), BitVec.ofNat 10 (0x100 + f.toNat % 256)⟩ :: rest) ∧
  (∀ f, withFrameNumber f [] = []) ∧ frameNumber? [] = none ∧
  (∀ (word : DataWord) (rest : List DataWord), let isByte := fun v : Lane => 0x100 ≤ v.toNat ∧ v.toNat ≤ 0x1FF
    ¬ (isByte word.luma ∧ isByte word.chroma) → frameNumber? (word :: rest) = none) ∧
  ∀ (s : State) (w : Lane) (data : List DataWord) (n : Nat) (fr : InFrame), let u := s.settle
    let f := match frameNumber? data, u.timing.frame with
      | some number, _ => number
      | none, some c => c + 1
      | none, none => 0
    u.follows → u.link.inFrame = some fr → fr.goesOn w → fr.openType = .frameHead →
    exec (.lineMarker w data n) s = .next { u with
      timing := { u.timing with frame := some f, gen := none }
      link := { u.link with
        inFrame := some (fr.afterLine data w n)
        vout := .line { type := .frameHead, data := withFrameNumber f data, source := .input, offset := none }
        cut := u.timing.gen.isSome, nextY := 0 }
      comp := u.comp.atHead u.timing.lock
      pkt := { u.pkt with outRange := ⟨u.status.params.mgmtFirstLine, u.status.params.mgmtLineCount⟩ }
      chn := u.chn.map fun r => { r with assembly := r.assembly.map fun a => { a with heads := a.heads + 1 } }
      headOpen := true } ∧
    (∀ a b rest, data = ⟨a, b⟩ :: rest → 0x100 ≤ a.toNat → a.toNat ≤ 0x1FF → 0x100 ≤ b.toNat → b.toNat ≤ 0x1FF →
      frameNumber? data = some (BitVec.ofNat 16 ((a.toNat - 0x100) * 256 + (b.toNat - 0x100))) ∧
      withFrameNumber f data = data)

/-! ### The Packet Unit -/

/-- The bytes of a line (R98), the last byte of an odd-length packet (R132, section 11.1), and what the Packet Unit examines:
the bytes of R98, with the byte of R132 where they are those of an odd-length packet but its last one (log 7); and the disposition of a management line's bytes (R125, R126, R127). -/
def Obligations.LineDisposition : Prop :=
  lineBytes [] = [] ∧ lastOddByte [] = [] ∧ (∀ data, let bs := lineBytes data
    packetStream data = if bs.head? = some 0xC3 ∧ 14 + u2 bs 6 = bs.length + 1 then bs ++ lastOddByte data else bs) ∧
  (∀ (w : DataWord) (ws : List DataWord), let isByte := fun v : Lane => 0x100 ≤ v.toNat ∧ v.toNat ≤ 0x1FF
    (isByte w.luma → isByte w.chroma →
      lineBytes (w :: ws) = byte (w.luma.toNat - 0x100) :: byte (w.chroma.toNat - 0x100) :: lineBytes ws ∧
      lastOddByte (w :: ws) = lastOddByte ws) ∧
    (¬ (isByte w.luma ∧ isByte w.chroma) → lineBytes (w :: ws) = []) ∧
    (¬ (isByte w.luma ∧ isByte w.chroma) → ¬ (isByte w.luma ∧ w.chroma = 0x200) → lastOddByte (w :: ws) = []) ∧
    (isByte w.luma → w.chroma = 0x200 → lastOddByte (w :: ws) = [byte (w.luma.toNat - 0x100)])) ∧
  ∀ (address : BitVec 5) (bs : List Byte),
    let complete := bs.head? = some 0xC3 ∧ 14 ≤ bs.length ∧ u2 bs 6 ≤ 1024 ∧ 14 + u2 bs 6 ≤ bs.length
    let passes := complete ∧ (crc16 (bs.take (12 + u2 bs 6))).toNat = u2 bs (12 + u2 bs 6)
    let command := passes ∧ u1 bs 1 / 16 = 1 ∧ u1 bs 1 % 2 = 0
    (bs.head? ≠ some 0xC3 → disposition address bs = .free) ∧
    (bs.head? = some 0xC3 → ¬ passes → disposition address bs = .forwarded ∧ packetFails bs = true) ∧
    (bs.head? ≠ some 0xC3 ∨ passes → packetFails bs = false) ∧
    (passes → u1 bs 1 / 16 ≠ 1 ∨ u1 bs 1 % 2 = 1 → disposition address bs = .forwarded) ∧
    (command → u1 bs 2 ≠ address.toNat → u1 bs 2 ≠ 63 → disposition address bs = .forwarded) ∧
    (∀ f, command → f = { ch := Fin.ofNat 4 (u1 bs 3), index := u1 bs 3 / 16 % 8, last := decide (128 ≤ u1 bs 3)
                          seq := BitVec.ofNat 4 (u1 bs 4), kind := (bs[5]?).getD 0
                          payload := (bs.drop 12).take (u2 bs 6) } →
      (u1 bs 2 = address.toNat → disposition address bs = .consumed f) ∧
      (u1 bs 2 = 63 → disposition address bs = .broadcast f))

/-- A completed line of ACQUIRING or LOCKED: its outbound content is fixed, then its packet is handed to the Channel
Unit, then the next line is opened (R128). Whichever marker completes it, an ACTIVE line of a frame latched ACQUIRING
passes uncomposed (R103, R109). A management line's content is its disposition's, and whether it lies in
the outbound range too decides (R126, R131). -/
def Obligations.ManagementLineRelayed : Prop :=
  (∀ (r : MgmtRange) (pos : Nat), r.holds pos = true ↔ r.first ≤ pos ∧ pos < r.first + r.count) ∧
  (∀ (s : State) (w : Lane) (data : List DataWord) (n : Nat) (fr : InFrame), let u := s.settle
    let done := u.completeLine data
    u.follows → u.link.inFrame = some fr → fr.goesOn w →
    exec (.lineMarker w data n) s = .next ((done.1.handed done.2).framed (fr.afterLine data w n)) ∧
    (fr.openType = .blank → done = (u.framed (fr.withLine data)).relayBlank fr fr.lines.length data)) ∧
  (∀ (u : State) (data : List DataWord) (fr : InFrame), let held := u.framed (fr.withLine data)
    u.follows → u.link.inFrame = some fr →
    (fr.openType = .blank → u.completeLine data = held.relayBlank fr fr.lines.length data) ∧
    (∀ x, fr.openType = .unknown x →
      u.completeLine data = ({ held with link := held.link.emits (.unknown x) data .input none }, none)) ∧
    (fr.openType = .active → fr.headless = true →
      u.completeLine data = ({ held with link := held.link.emits .active data .input none }, none)) ∧
    (fr.openType = .active → fr.headless = false → u.comp.latch = .acquiring ∨ u.comp.latch = .noSignal →
      u.completeLine data = ({ held with
        link := { held.link.emits .active data .input none with nextY := u.link.nextY + 1 } }, none)) ∧
    (fr.openType = .active → fr.headless = false →
      u.comp.latch = .locked ∨ u.comp.latch = .holdover ∨ u.comp.latch = .rejoining →
      u.completeLine data = ({ held with
        link := { held.link.emits .active (u.composeLine u.link.nextY data) .input none with
          nextY := u.link.nextY + 1 } }, none))) ∧
  ∀ (s : State) (fr : InFrame) (pos : Nat) (data : List DataWord), fr.headless = false →
    s.pkt.inRange.holds pos = true →
    let bytes := packetStream data
    let v := if packetFails bytes then s.raise .packetCrc else s
    let same := { v with link := s.link.emits .blank data .input none }
    let blanked := { v with link := s.link.emits .blank (List.replicate data.length ⟨0x040, 0x200⟩) .input none }
    (disposition s.status.address bytes = .forwarded → s.relayBlank fr pos data = (same, none)) ∧
    (∀ f, disposition s.status.address bytes = .broadcast f → s.relayBlank fr pos data = (same, some f)) ∧
    (s.pkt.outRange.holds pos = true →
      (disposition s.status.address bytes = .free →
        s.relayBlank fr pos data = (v.emitFree data.length .input none, none)) ∧
      (∀ f, disposition s.status.address bytes = .consumed f →
        s.relayBlank fr pos data = (v.emitFree data.length .input none, some f))) ∧
    (s.pkt.outRange.holds pos = false →
      (disposition s.status.address bytes = .free → s.relayBlank fr pos data = (same, none)) ∧
      (∀ f, disposition s.status.address bytes = .consumed f →
        s.relayBlank fr pos data = (blanked, some f)))

/-- RESPONSE_EMISSION (R132), of an entry that is not marked: the oldest filled entry that fits leaves the queue, two
bytes a word, then empty-line content; otherwise the line is empty and the queue as it was. Every other free line,
passed or generated, takes its content in the same way (`State.emitFree`), and a packet's line has the words of R132. A
packet that the part forms (R137) is examined downstream as it was laid: the stream ends at the end of the packet. -/
def Obligations.ResponseEmitted : Prop :=
  (∀ (v : State) (width : Nat) (source : LineSource) (offset : Option Nat),
    let empty := { v with link := v.link.emits .blank (List.replicate width ⟨0x040, 0x200⟩) source offset }
    (v.pkt.filled = [] → v.emitFree width source offset = empty) ∧
    ∀ e rest, v.pkt.filled = e :: rest →
      (width < (e.packet.length + 1) / 2 → v.emitFree width source offset = empty) ∧
      ((e.packet.length + 1) / 2 ≤ width → e.marked = false → v.emitFree width source offset = { v with
        pkt := { v.pkt with filled := rest }
        link := v.link.emits .blank (packetLine e.packet width) source offset }) ∧
      ((e.packet.length + 1) / 2 ≤ width → e.marked = true → let t := v.emitFree width .input none
        v.emitFree width source offset = { t with
          link := t.link.emits .blank (packetLine e.packet width) source offset })) ∧
  (∀ (packet : List Byte) (width : Nat), (packet.length + 1) / 2 ≤ width → let data := packetLine packet width
    data.length = width ∧ lineBytes data ++ lastOddByte data = packet ∧
    (packet.head? = some 0xC3 → packet.length = 14 + u2 packet 6 → packetStream data = packet) ∧
    ∀ (k : Nat) (word : DataWord), data[k]? = some word →
      (∀ a b, packet[2 * k]? = some a → packet[2 * k + 1]? = some b →
        word.luma.toNat = 0x100 + a.toNat ∧ word.chroma.toNat = 0x100 + b.toNat) ∧
      (∀ a, packet[2 * k]? = some a → packet[2 * k + 1]? = none →
        word.luma.toNat = 0x100 + a.toNat ∧ word.chroma = 0x200) ∧
      (packet[2 * k]? = none → word = ⟨0x040, 0x200⟩)) ∧
  (∀ (address : BitVec 5) (ch : Chan) (seq : SeqNo) (kind : Byte) (code : Code) (frame : Nat) (payload : List Byte),
    payload.length ≤ 1024 → let packet := packetOf address ch seq kind code frame payload
    packet.head? = some 0xC3 ∧ packet.length = 14 + payload.length ∧ u2 packet 6 = payload.length) ∧
  (∀ (s : State) (width : Nat), let u := s.settle
    u.timing.frame.isSome = true → exec (.responseEmission width) s =
      .next (u.emitFree width (if u.timing.gen.isSome then .generator else .input) none)) ∧
  ∀ (s : State) (width : Nat), let u := s.settle
    let source := if u.timing.gen.isSome then LineSource.generator else LineSource.input
    u.timing.frame.isSome = true →
    (u.pkt.filled = [] →
      exec (.responseEmission width) s = .next { u with
        link := u.link.emits .blank (List.replicate width ⟨0x040, 0x200⟩) source none }) ∧
    ∀ e rest, u.pkt.filled = e :: rest →
      (width < (e.packet.length + 1) / 2 →
        exec (.responseEmission width) s = .next { u with
          link := u.link.emits .blank (List.replicate width ⟨0x040, 0x200⟩) source none }) ∧
      ((e.packet.length + 1) / 2 ≤ width → e.marked = false →
        ∃ data, exec (.responseEmission width) s = .next { u with
            pkt := { u.pkt with filled := rest }
            link := u.link.emits .blank data source none } ∧
          data.length = width ∧ lineBytes data ++ lastOddByte data = e.packet ∧
          (e.packet.head? = some 0xC3 → e.packet.length = 14 + u2 e.packet 6 → packetStream data = e.packet) ∧
          ∀ (k : Nat) (word : DataWord), data[k]? = some word →
            (∀ a b, e.packet[2 * k]? = some a → e.packet[2 * k + 1]? = some b →
              word.luma.toNat = 0x100 + a.toNat ∧ word.chroma.toNat = 0x100 + b.toNat) ∧
            (∀ a, e.packet[2 * k]? = some a → e.packet[2 * k + 1]? = none →
              word.luma.toNat = 0x100 + a.toNat ∧ word.chroma = 0x200) ∧
            (e.packet[2 * k]? = none → word = ⟨0x040, 0x200⟩))

/-! ### The Channel Unit -/

/-- A duplicate of the last message (R144): its LAST fragment has the cached response re-queued, where there is one and
room for it; no other fragment does anything, and nothing else changes. -/
def Obligations.DuplicateAnswered : Prop :=
  (∀ (u : State) (f : Fragment), let r := u.chan f.ch
    f.kind ≠ 0x30 → r.state = .idle → f.seq = r.last →
    (f.last = false → u.fragment f = u) ∧
    (∀ packet, f.last = true → r.cache = some packet → u.pkt.total < 16 → u.fragment f = u.queued packet) ∧
    (f.last = true → r.cache = none ∨ 16 ≤ u.pkt.total → u.fragment f = u)) ∧
  ∀ (s : State) (k : Kind) (ch : Chan) (p : List Byte), let u := s.settle
    k ≠ .resync → u.takesLines = true → (u.chan ch).state = .idle → p.length ≤ 8192 →
    (∀ packet, (u.chan ch).cache = some packet → u.pkt.total < 16 →
      exec (k.command ch (u.chan ch).last p) s = .next (u.queued packet)) ∧
    ((u.chan ch).cache = none ∨ 16 ≤ u.pkt.total → exec (k.command ch (u.chan ch).last p) s = .next u)

/-- A fragment out of sequence at an idle channel (R145, R156): a bulk channel halts and is refused SEQUENCE; channel
0 is refused SEQUENCE at index 0 only, and stays as it is. At a channel that is EXECUTING or HALTED (R153, R154) a
fragment is refused BUSY or HALTED where it is LAST and ignored otherwise; the record does not change. -/
def Obligations.FragmentRefused : Prop :=
  ∀ (u : State) (f : Fragment), let r := u.chan f.ch
    let halted := { u with chn := u.chn.set f.ch { r with state := .halted } }
    let refusal := fun was : Byte =>
      u.packet f.ch f.seq f.kind .sequence [f.seq.setWidth 8, (r.last + 1).setWidth 8, was]
    f.kind ≠ 0x30 →
    (r.state = .idle → f.seq ≠ r.last → f.seq ≠ r.last + 1 →
      (f.ch ≠ 0 → u.pkt.total < 16 → u.fragment f = halted.queued (refusal 1)) ∧
      (f.ch ≠ 0 → 16 ≤ u.pkt.total → u.fragment f = halted) ∧
      (f.ch = 0 → f.index = 0 → u.pkt.total < 16 → u.fragment f = u.queued (refusal 0)) ∧
      (f.ch = 0 → f.index = 0 → 16 ≤ u.pkt.total → u.fragment f = u) ∧
      (f.ch = 0 → f.index ≠ 0 → u.fragment f = u)) ∧
    (r.state = .executing → f.seq = r.last ∨ f.last = false → u.fragment f = u) ∧
    (r.state = .executing → f.seq ≠ r.last → f.last = true → u.pkt.total < 16 →
      u.fragment f = u.queued (u.packet f.ch f.seq f.kind .busy [r.last.setWidth 8])) ∧
    (r.state = .halted → f.last = false → u.fragment f = u) ∧
    (r.state = .halted → f.last = true → u.pkt.total < 16 →
      u.fragment f = u.queued (u.packet f.ch f.seq f.kind .halted [r.last.setWidth 8])) ∧
    (r.state = .executing ∨ r.state = .halted → 16 ≤ u.pkt.total → u.fragment f = u)

/-- Fragments of the next message at an IDLE channel (R143, R146), and of a message being assembled (R146, R147): a
single fragment completes, a full first one begins an assembly, later ones are joined in order, repeats and remainders
ignored, a gap or a wrong size refused with the assembly dropped, whether or not the refusal finds room (R156), and a
fragment of another sequence drops the assembly and is handled as at IDLE. -/
def Obligations.FragmentsJoined : Prop :=
  (∀ u : State, [0, 1, 2, 3].map u.chan = [u.chn.c0, u.chn.c1, u.chn.c2, u.chn.c3]) ∧
  (∀ (u : State) (ch c : Chan) (r : ChanRec), ({ u with chn := u.chn.set ch r }).chan c =
    if c = ch then r else u.chan c) ∧
  (∀ (u : State) (c : Chan) (g : ChanRec → ChanRec), ({ u with chn := u.chn.map g }).chan c = g (u.chan c)) ∧
  ∀ (u : State) (f : Fragment), let r := u.chan f.ch
    let dropped := { u with chn := u.chn.set f.ch { r with state := .idle, assembly := none } }
    let sizeRefusal := u.packet f.ch f.seq f.kind .fragmentSize (byte f.index :: be2 f.payload.length)
    f.kind ≠ 0x30 →
    (r.state = .idle → f.seq = r.last + 1 →
      (f.index = 0 → f.last = true → u.fragment f = u.complete f.ch f.seq f.kind f.payload) ∧
      (f.index = 0 → f.last = false → f.payload.length = 1024 →
        u.fragment f = { u with chn := u.chn.set f.ch { r with
          state := .assembling
          assembly := some { seq := f.seq, kind := f.kind, frags := [f.payload], heads := 0 } } }) ∧
      (f.index = 0 → f.last = false → f.payload.length ≠ 1024 →
        (u.pkt.total < 16 → u.fragment f = dropped.queued sizeRefusal) ∧
        (16 ≤ u.pkt.total → u.fragment f = dropped)) ∧
      (f.index ≠ 0 → u.fragment f = u)) ∧
    ∀ a : Assembly, r.state = .assembling → r.assembly = some a →
      (f.seq ≠ a.seq → u.fragment f = dropped.fragment f) ∧
      (f.seq = a.seq →
        (f.index = a.frags.length → f.last = false → f.payload.length = 1024 → f.index ≠ 7 →
          u.fragment f = { u with chn := u.chn.set f.ch { r with
            assembly := some { a with frags := a.frags ++ [f.payload] } } }) ∧
        (f.index = a.frags.length → f.last = true →
          u.fragment f = u.complete f.ch a.seq a.kind (a.frags ++ [f.payload]).flatten) ∧
        (f.index < a.frags.length → u.fragment f = u) ∧
        (f.index = a.frags.length → f.last = false → f.payload.length ≠ 1024 ∨ f.index = 7 →
          (u.pkt.total < 16 → u.fragment f = dropped.queued sizeRefusal) ∧
          (16 ≤ u.pkt.total → u.fragment f = dropped)) ∧
        (a.frags.length < f.index →
          (u.pkt.total < 16 → u.fragment f = dropped.queued
            (u.packet f.ch f.seq f.kind .fragmentGap [f.seq.setWidth 8, byte a.frags.length, byte f.index])) ∧
          (16 ≤ u.pkt.total → u.fragment f = dropped)))

/-- A complete message that finds no room for a reservation is dropped unexecuted: RESPONSE_DROPPED is set, and its
sequence does not advance (R149). One that finds room meets the generic checks in their order (R150, R164): a refusal
is answered and cached, but while the part is RESETTING it neither advances the sequence nor is cached. The kinds, the
channels and lengths each allows, and the length required are those of the tables (R141, R164, R165, section 11.4).
Messages are taken in ACQUIRING, LOCKED and REJOINING once an output frame head has been produced, and a message row
changes nothing anywhere else: the model's reading of R99, R107, R133 and R158 (log 3). -/
def Obligations.MessageReservedAndChecked : Prop :=
  (∀ (b : Byte) (k : Kind), Kind.ofCode? b = some k ↔ (b, k) ∈
    ([(0x01, .winStage), (0x02, .winPlace), (0x03, .winShow), (0x04, .palStage), (0x05, .fillStage), (0x08, .setCommit),
      (0x09, .setDiscard), (0x0A, .setWithdraw), (0x10, .segCreate), (0x11, .segWrite), (0x12, .segClose),
      (0x13, .segDelete), (0x18, .queryStatus), (0x19, .queryWindow), (0x1A, .queryPalette), (0x1B, .querySegment),
      (0x1C, .queryDirectory), (0x20, .paramSet), (0x21, .paramQuery), (0x22, .partReset), (0x30, .resync)] :
      List (Byte × Kind))) ∧
  (∀ k : Kind, Kind.ofCode? k.code = some k) ∧
  (∀ (k : Kind) (ch : Chan), k.onChannel ch = true ↔
    match k with
    | .segWrite => ch ≠ 0
    | .segClose => ch ≠ 0
    | .resync => True
    | _ => ch = 0) ∧
  (∀ (k : Kind) (p : List Byte), k.lengthAllowed p = true ↔ k.allowsLength p) ∧
  (∀ (k : Kind) (p : List Byte) (n : Nat), k.statedLength p = some n → n < 65536 → (k.requiredLength p).toNat = n) ∧
  (∀ u : State, u.takesLines = true ↔
    (u.timing.lock = .acquiring ∨ u.timing.lock = .locked ∨ u.timing.lock = .rejoining) ∧ u.timing.frame ≠ none) ∧
  (∀ (s : State) (k : Kind) (ch : Chan) (seq : SeqNo) (p : List Byte),
    s.settle.takesLines = false → exec (k.command ch seq p) s = .next s.settle) ∧
  (∀ (s : State) (k : Kind) (ch : Chan) (seq : SeqNo) (p : List Byte), let u := s.settle
    k ≠ .resync → u.takesLines = true → (u.chan ch).state = .idle → seq = (u.chan ch).last + 1 →
    p.length ≤ 8192 → 16 ≤ u.pkt.total →
    exec (k.command ch seq p) s = .next { u with
      chn := u.chn.set ch { u.chan ch with state := .idle, assembly := none }
      status := { u.status with flags := { u.status.flags with responseDropped := true } } }) ∧
  ∀ (u : State) (ch : Chan) (seq : SeqNo) (kind : Byte) (p : List Byte) (code : Code) (data : List Byte),
    u.pkt.total < 16 →
    ((Kind.ofCode? kind = none ∧ code = .badKind ∧ data = [kind]) ∨
      (∃ k, Kind.ofCode? kind = some k ∧ k.onChannel ch = false ∧ code = .wrongChannel ∧
        data = [byte ch.val, if k = .segWrite ∨ k = .segClose then 14 else 1]) ∨
      (∃ k, Kind.ofCode? kind = some k ∧ k.onChannel ch = true ∧ k.lengthAllowed p = false ∧ code = .badLength ∧
        data = be2 p.length ++ be2 (k.requiredLength p).toNat) ∨
      (∃ k, Kind.ofCode? kind = some k ∧ k.onChannel ch = true ∧ k.lengthAllowed p = true ∧
        u.status.resetting ≠ none ∧ code = .resetting ∧ data = [])) →
    (u.status.resetting = none → u.complete ch seq kind p = u.answered ch seq kind code data) ∧
    (u.status.resetting ≠ none → u.complete ch seq kind p =
      { u.queued (u.packet ch seq kind code data) with
        chn := u.chn.set ch { u.chan ch with state := .idle, assembly := none } })

/-- ASSEMBLY_TIMEOUT (R148, R184): at an open head, after the application of a set that is due (R55), each assembly
whose head count has reached the parameter is dropped in ascending channel order, with the flag set and the notice
offered; nothing else changes. Any other command that meets the open head does the same first (`State.settle`): the
model's choice (log 2), as is that with no head open nothing happens (log 4). -/
def Obligations.AssembliesTimeOut : Prop :=
  ∀ s : State,
    (s.headOpen = true → ∃ v, exec .setApplication s = .next v ∧
      s.settle = { (((v.timedOut 0).timedOut 1).timedOut 2).timedOut 3 with headOpen := false }) ∧
    (s.headOpen = false → s.settle = s) ∧
    exec .assemblyTimeout s = .next s.settle

/-- RESYNC (R155): taken in any state but EXECUTING; refused there; dropped without room; a payload is refused
BAD_LENGTH with the record unchanged; one that is not a single fragment is ignored. -/
def Obligations.Resynchronised : Prop :=
  ∀ (s : State) (ch : Chan) (seq : SeqNo) (p : List Byte), let u := s.settle
    let r := u.chan ch
    u.takesLines = true → p.length ≤ 1024 →
    (r.state ≠ .executing → u.pkt.total < 16 → u.status.resetting = none → p = [] →
      exec (.resync ch seq p) s = .next (u.answered ch seq 0x30 .ok
        [byte r.state.code, byte ((r.assembly.map (·.frags.length)).getD 0)])) ∧
    (r.state ≠ .executing → u.pkt.total < 16 → p ≠ [] →
      exec (.resync ch seq p) s = .next (u.queued (u.packet ch seq 0x30 .badLength (be2 p.length ++ [0, 0])))) ∧
    (r.state ≠ .executing → u.pkt.total < 16 → u.status.resetting ≠ none → p = [] →
      exec (.resync ch seq p) s = .next (u.queued (u.packet ch seq 0x30 .resetting []))) ∧
    (r.state ≠ .executing → 16 ≤ u.pkt.total →
      exec (.resync ch seq p) s = .next { u with
        status := { u.status with flags := { u.status.flags with responseDropped := true } } }) ∧
    (r.state = .executing → u.pkt.total < 16 →
      exec (.resync ch seq p) s = .next (u.queued (u.packet ch seq 0x30 .busy [r.last.setWidth 8]))) ∧
    (r.state = .executing → 16 ≤ u.pkt.total → exec (.resync ch seq p) s = .next u) ∧
    ∀ f : Fragment, f.kind = 0x30 → f.index ≠ 0 ∨ f.last = false → u.fragment f = u

/-! ### The Status Unit and the queries -/

/-- QUERY_STATUS (R181, R182, section 11.8): a record of 47 bytes as of the taking, and with clear yes every flag
clear; the codes and weights in it are those of sections 11.2 and 11.8. -/
def Obligations.StatusReported : Prop :=
  ([.noSignal, .acquiring, .locked, .holdover, .rejoining] : List LockState).map LockState.code = [0, 1, 2, 3, 4] ∧
  ([.idle, .assembling, .executing, .halted] : List ChanState).map ChanState.code = [0, 1, 2, 3] ∧
  (LastReset.hard.scopeCode = 0 ∧ LastReset.hard.pathCode = 0) ∧
  (∀ path, (LastReset.soft .overlay path).scopeCode = 1 ∧ (LastReset.soft .full path).scopeCode = 2) ∧
  (∀ scope, (LastReset.soft scope .emission).pathCode = 1 ∧ (LastReset.soft scope .noSignal).pathCode = 2) ∧
  (∀ fl : Flags, fl.weights = (if fl.lockChange then 1 else 0) + (if fl.geometryFault then 2 else 0) +
    (if fl.lateApply then 4 else 0) + (if fl.assemblyTimeout then 8 else 0) + (if fl.responseDropped then 16 else 0) +
    (if fl.noticeDropped then 32 else 0) + (if fl.packetCrc then 64 else 0) + (if fl.segmentReleased then 128 else 0)) ∧
  ∀ (s : State) (seq : SeqNo) (p : List Byte), let u := s.settle
    u.readyFor 0 seq → p.length = 1 → u1 p 0 ≤ 1 →
    ∃ record, exec (.queryStatus 0 seq p) s = .next
        (({ u with status := { u.status with
            flags := if u1 p 0 = 1 then Flags.clear else u.status.flags } }).answered 0 seq 0x18 .ok record) ∧
      record.length = 47 ∧
      record.take 7 = [0x03, 0xA7, 0x01, 0xA4, 1, u.status.address.setWidth 8, byte u.timing.lock.code] ∧
      (record.drop 7).take 7 = (match u.timing.recorded with
        | some sh => 1 :: be2 sh.geometry.width ++ be2 sh.geometry.activeLines ++ be2 sh.geometry.totalLines
        | none => [0, 0, 0, 0, 0, 0, 0]) ∧
      (record.drop 14).take 3 = (match u.timing.frame with
        | some f => 1 :: be2 f.toNat
        | none => [0, 0, 0]) ∧
      (record.drop 17).take 3 = byte u.timing.faultCount :: be2 u.timing.holdoverCount ∧
      (record.drop 20).take 3 = byte u.cset.openSet.length :: be2 (stagedBytes u.cset.openSet) ∧
      (record.drop 23).take 4 = (match u.cset.scheduled with
        | some { edits := _, target := .atFrame n } => [1, 1] ++ be2 n.toNat
        | some { edits := _, target := .next } => [1, 0, 0, 0]
        | none => [0, 0, 0, 0]) ∧
      (record.drop 27).take 3 = (match u.cset.lastApp with
        | some f => 1 :: be2 f.toNat
        | none => [0, 0, 0]) ∧
      (record.drop 30).take 4 =
        be2 u.store.freeList.length ++ [byte u.store.dir.length, byte u.store.queue.length] ∧
      (record.drop 34).take 4 =
        [0, byte u.chn.c1.state.code, byte u.chn.c2.state.code, byte u.chn.c3.state.code] ∧
      (record.drop 38).take 4 =
        [seq.setWidth 8, u.chn.c1.last.setWidth 8, u.chn.c2.last.setWidth 8, u.chn.c3.last.setWidth 8] ∧
      (record.drop 42).take 2 = [byte u.pkt.filled.length, byte (u.pkt.reserved.length + 1)] ∧
      record.drop 44 = [byte u.status.lastReset.scopeCode, byte u.status.lastReset.pathCode,
        byte u.status.flags.weights]

/-- PARAM_SET and PARAM_QUERY (R172, R173, R185): every pair in range written in order; the values in force reported,
one pair for each identifier. -/
def Obligations.ParametersSetAndQueried : Prop :=
  (∀ q : Params, [1, 2, 3, 4, 5, 6].map q.get =
    [q.mgmtFirstLine, q.mgmtLineCount, q.assemblyTimeout, q.holdoverLimit, q.lossInterval, q.noticeMask]) ∧
  ∀ (s : State) (seq : SeqNo) (p : List Byte), let u := s.settle
    u.readyFor 0 seq →
    (∀ n, p.length = 3 * n → 1 ≤ n → n ≤ 16 → (∀ k < n, paramInRange (u1 p (3 * k)) (u2 p (3 * k + 1))) →
      ∃ q : Params,
        exec (.paramSet 0 seq p) s = .next
          (({ u with status := { u.status with params := q } }).answered 0 seq 0x20 .ok [byte n]) ∧
        (∀ k < n, (∀ j, k < j → j < n → u1 p (3 * j) ≠ u1 p (3 * k)) →
          q.get (u1 p (3 * k)) = u2 p (3 * k + 1)) ∧
        ∀ i, (∀ k < n, u1 p (3 * k) ≠ i) → q.get i = u.status.params.get i) ∧
    (1 ≤ p.length → p.length ≤ 16 → (∀ k < p.length, 1 ≤ u1 p k ∧ u1 p k ≤ 6) →
      exec (.paramQuery 0 seq p) s = .next (u.answered 0 seq 0x21 .ok
        (p.flatMap fun b => b :: be2 (u.status.params.get b.toNat))))

/-- PART_RESET taken (R187): the OK with the scope joins the queue, marked, and is cached, and the part is RESETTING. -/
def Obligations.PartResetTaken : Prop :=
  ∀ (s : State) (seq : SeqNo) (p : List Byte) (scope : ResetScope), let u := s.settle
    let packet := u.packet 0 seq 0x22 .ok p
    u.readyFor 0 seq → p = [match scope with
      | .overlay => 1
      | .full => 2] →
    exec (.partReset 0 seq p) s = .next { u with
      status := { u.status with resetting := some scope }
      pkt := { u.pkt with
        filled := u.pkt.filled ++ [{ packet := packet, marked := true, fillTime := u.pkt.fillClock }]
        fillClock := u.pkt.fillClock + 1 }
      chn := u.chn.set 0 (.answered seq packet) }

/-- The emission of the marked OK (R188, R189, R21, R32, R64, R93, R94, R139, R161): every block takes its values for
the scope, whether the free line is the row PART_RESET_EFFECT or RESPONSE_EMISSION. -/
def Obligations.PartResetEffect : Prop :=
  WinSlot.resetAll = ([0, 1, 2, 3, 4, 5, 6, 7] : List (Fin 8)).map (fun i =>
    { win := { enabled := false, segment := none, depth := .d8, srcWidth := 1, srcHeight := 1, originX := 0,
               originY := 0, hScale := .x1, vScale := .x1, palette := 0, level := 0, priority := i, blinkOn := 0,
               blinkOff := 0, cond := .always, key := none, remap := none }
      phase := 0, shown := false }) ∧
  ChanRec.reset = { state := .idle, last := 15, assembly := none, cache := none } ∧
  (Flags.clear = { lockChange := false, geometryFault := false, lateApply := false, assemblyTimeout := false,
                   responseDropped := false, noticeDropped := false, packetCrc := false, segmentReleased := false }) ∧
  ∀ (s : State) (width : Nat) (e : Entry) (rest : List Entry), let u := s.settle
    let source := if u.timing.gen.isSome then LineSource.generator else LineSource.input
    let comp := { u.comp with
      slots := WinSlot.resetAll
      palettes := List.replicate 4 (List.replicate 256 ⟨64, 512, 512, 0⟩), fill := ⟨64, 512, 512⟩ }
    let link := u.link.emits .blank (packetLine e.packet width) source none
    u.timing.frame.isSome = true → u.timing.lock ≠ .noSignal → u.pkt.filled = e :: rest → e.marked = true →
    (e.packet.length + 1) / 2 ≤ width →
    (u.status.resetting = some .overlay →
      let t := { u with
        link := link, comp := comp, cset := { openSet := [], scheduled := none, lastApp := none }
        store := { u.store with
          freeList := u.store.freeList ++ (u.store.dir.filter fun g => g.state == .retiring).flatMap (·.blocks)
          dir := (u.store.dir.filter fun g => g.state != .retiring).map fun g =>
            { g with active := 0, staged := 0 } }
        pkt := { u.pkt with filled := rest }
        status := { u.status with resetting := none, lastReset := .soft .overlay .emission } }
      exec (.partResetEffect width) s = .next t ∧ exec (.responseEmission width) s = .next t) ∧
    (u.status.resetting = some .full →
      let t := { u with
        link := link, comp := comp, cset := { openSet := [], scheduled := none, lastApp := none }
        store := { u.store with freeList := List.range 4096, dir := [], queue := [] }
        pkt := { u.pkt with filled := [], reserved := [] }
        chn := { c0 := ChanRec.reset, c1 := ChanRec.reset, c2 := ChanRec.reset, c3 := ChanRec.reset }
        status := { u.status with
          resetting := none, flags := Flags.clear, lastReset := .soft .full .emission } }
      exec (.partResetEffect width) s = .next t ∧ exec (.responseEmission width) s = .next t)

/-- QUERY_WINDOW and QUERY_PALETTE (R22, R33): the active record with its phase and shown decision; the entries and
the fill colour; nothing changes but the answer. Entry `i` of palette `q` is `palettes[q][i]` (R12, R24), here and where
a window is visited. -/
def Obligations.WindowAndPaletteQueried : Prop :=
  (∀ (c : Compositor) (q : Fin 4) (i : Nat) (pal : List PalEntry) (e : PalEntry), c.palettes[q.val]? = some pal →
    pal[i]? = some e → c.palEntry q i = e) ∧
  ∀ (s : State) (seq : SeqNo) (p : List Byte), let u := s.settle
    u.readyFor 0 seq →
    (∀ sl, p.length = 1 → u1 p 0 ≤ 7 → u.comp.slots[u1 p 0]? = some sl →
      exec (.queryWindow 0 seq p) s = .next (u.answered 0 seq 0x19 .ok
        (windowBytes (u1 p 0) sl.win ++ be2 sl.phase ++ [if sl.shown then 1 else 0]))) ∧
    (p.length = 5 → u1 p 0 ≤ 3 → u2 p 1 ≤ 255 → 1 ≤ u2 p 3 → u2 p 3 ≤ 120 → u2 p 1 + u2 p 3 ≤ 256 →
      exec (.queryPalette 0 seq p) s = .next (u.answered 0 seq 0x1A .ok
        (p ++ ((List.range (u2 p 3)).flatMap fun k =>
            palEntryBytes (u.comp.palEntry (Fin.ofNat 4 (u1 p 0)) (u2 p 1 + k)))
          ++ (be2 u.comp.fill.y.toNat ++ be2 u.comp.fill.cb.toNat ++ be2 u.comp.fill.cr.toNat))))

/-- QUERY_SEGMENT and QUERY_DIRECTORY (R90, R91): the record, or NO_SEGMENT; the counts and the listing; nothing
changes but the answer. -/
def Obligations.StoreQueried : Prop :=
  ([.loading, .verifying, .ready, .retiring] : List SegState).map SegState.code = [0, 1, 2, 3] ∧
  (∀ (st : Store) (id : Nat), (st.seg id = none ↔ ∀ g ∈ st.dir, g.id ≠ id) ∧
    (∀ g, st.seg id = some g → g ∈ st.dir ∧ g.id = id) ∧
    (idsRise st.dir = true → ∀ g ∈ st.dir, g.id = id → st.seg id = some g)) ∧
  ∀ (s : State) (seq : SeqNo) (p : List Byte), let u := s.settle
    u.readyFor 0 seq →
    (p.length = 4 → u.store.seg (u4 p 0) = none →
      exec (.querySegment 0 seq p) s = .next (u.answered 0 seq 0x1B .noSegment (be4 (u4 p 0)))) ∧
    (∀ g first last middle, p.length = 4 → u.store.seg (u4 p 0) = some g →
      (g.blocks = [first] ∧ last = first ∨ g.blocks = first :: middle ++ [last]) →
      exec (.querySegment 0 seq p) s = .next (u.answered 0 seq 0x1B .ok
        (be4 (u4 p 0) ++ [byte g.state.code] ++ be4 g.length ++ be2 g.blocks.length ++ be2 first ++ be2 last
          ++ [byte g.active, byte g.staged, byte g.queued]
          ++ match g.check with
             | some v => 1 :: be4 v.toNat
             | none => [0, 0, 0, 0, 0]))) ∧
    (p = [] →
      exec (.queryDirectory 0 seq p) s = .next (u.answered 0 seq 0x1C .ok
        ([byte u.store.dir.length] ++ be2 u.store.freeList.length ++ [byte u.store.queue.length]
          ++ u.store.dir.flatMap fun g => [byte g.id, byte g.state.code])))

/-- A notice (R183): admitted at the tail of the fill order where its kind is enabled and there is room; without room
NOTICE_DROPPED is set; a disabled kind leaves no trace. Its weight in NOTICE_MASK and its code are those of R172 and
section 11.4. Every packet the part forms, a notice's and a response's, has the bytes of R137 and section 11.3, the
result codes of section 11.5, and the CRC-16 of R126 over all that precedes it, high byte first; that the ignored bits
of header bytes 3 and 4 are 0 is the model's choice (log 27). -/
def Obligations.NoticeAdmission : Prop :=
  (∀ n : Nat, byte n = BitVec.ofNat 8 n ∧ be2 n = [BitVec.ofNat 8 (n / 256), BitVec.ofNat 8 n] ∧
    be4 n = be2 (n / 65536) ++ be2 n) ∧
  (∀ f : FrameNo, presentBe2 (some f) = 1 :: be2 f.toNat) ∧ presentBe2 none = [0, 0, 0] ∧
  (∀ u : State, u.pkt.total = u.pkt.filled.length + u.pkt.reserved.length) ∧
  (∀ s : State, let raised := fun flags : Flags => { s with status := { s.status with flags := flags } }
    s.raise .lockChange = raised { s.status.flags with lockChange := true } ∧
    s.raise .geometryFault = raised { s.status.flags with geometryFault := true } ∧
    s.raise .packetCrc = raised { s.status.flags with packetCrc := true }) ∧
  crc16 [] = 0xFFFF ∧
  (∀ (bs : List Byte) (b : Byte), crc16 (bs ++ [b]) =
    (List.range 8).foldl (fun c _ => if c.msb then (c <<< 1) ^^^ 0x1021 else c <<< 1)
      (crc16 bs ^^^ (b.setWidth 16 <<< 8))) ∧
  (∀ (address : BitVec 5) (ch : Chan) (seq : SeqNo) (kind : Byte) (code : Code) (frame : Nat) (payload : List Byte),
    let covered := [0xC3, 0x11, address.setWidth 8, BitVec.ofNat 8 (0x80 + ch.val), seq.setWidth 8, kind] ++
      be2 payload.length ++ be2 code.num ++ be2 frame ++ payload
    packetOf address ch seq kind code frame payload = covered ++ be2 (crc16 covered).toNat) ∧
  (∀ (s : State) (ch : Chan) (seq : SeqNo) (kind : Byte) (code : Code) (payload : List Byte),
    s.packet ch seq kind code payload = packetOf s.status.address ch seq kind code
      (match s.timing.frame with
        | some f => f.toNat
        | none => 0) payload) ∧
  (∀ x ∈ ([
      (.ok, 0), (.badLength, 1), (.badKind, 2), (.wrongChannel, 3), (.badValue, 4), (.busy, 5), (.halted, 6),
      (.sequence, 7), (.fragmentGap, 8), (.fragmentSize, 10), (.resetting, 11), (.setFull, 12), (.setEmpty, 13),
      (.pending, 14), (.noneScheduled, 15), (.lineLoad, 16), (.late, 17), (.far, 18), (.priorityClash, 19),
      (.segmentShort, 20), (.noSegment, 21), (.notReady, 22), (.retiring, 23), (.exists_, 24),
      (.directoryFull, 25), (.noSpace, 26), (.inUse, 27), (.writeRange, 28), (.closed, 29), (.checkMismatch, 30)] :
      List (Code × Nat)), x.1.num = x.2) ∧
  (([.lockState, .applied, .lateApply, .segmentReady, .segmentReleased, .assemblyTimeout] : List NoticeKind).map
    fun k => (k.weight, k.code)) = [(1, 1), (2, 2), (4, 3), (8, 4), (16, 5), (32, 6)] ∧
  ∀ (s : State) (k : NoticeKind) (data : List Byte), let enabled := s.status.params.noticeMask / k.weight % 2 = 1
    (enabled → s.pkt.total < 16 → s.offerNotice k data =
      s.queued (packetOf s.status.address 0 0 0x40 .ok ((s.timing.frame.map BitVec.toNat).getD 0) (k.code :: data))) ∧
    (enabled → 16 ≤ s.pkt.total → s.offerNotice k data =
      { s with status := { s.status with flags := { s.status.flags with noticeDropped := true } } }) ∧
    (¬ enabled → s.offerNotice k data = s)

end Statements
end

