-- ==== Sys2Proof/Laws/State.lean ====
section
/-! SUPPORT. Laws/State.lean: what each named update does to each field, field by field, so that no later proof unfolds
a record update. -/

namespace Sys2Proof.Machine

/-! `State.setChan`: field by field. -/
@[simp] theorem State.setChan_timing (s : State) (ch : Chan) (r : ChanRec) :
    (s.setChan ch r).timing = s.timing := rfl
@[simp] theorem State.setChan_link (s : State) (ch : Chan) (r : ChanRec) :
    (s.setChan ch r).link = s.link := rfl
@[simp] theorem State.setChan_comp (s : State) (ch : Chan) (r : ChanRec) :
    (s.setChan ch r).comp = s.comp := rfl
@[simp] theorem State.setChan_cset (s : State) (ch : Chan) (r : ChanRec) :
    (s.setChan ch r).cset = s.cset := rfl
@[simp] theorem State.setChan_store (s : State) (ch : Chan) (r : ChanRec) :
    (s.setChan ch r).store = s.store := rfl
@[simp] theorem State.setChan_pkt (s : State) (ch : Chan) (r : ChanRec) :
    (s.setChan ch r).pkt = s.pkt := rfl
@[simp] theorem State.setChan_chn (s : State) (ch : Chan) (r : ChanRec) :
    (s.setChan ch r).chn = s.chn.set ch r := rfl
@[simp] theorem State.setChan_status (s : State) (ch : Chan) (r : ChanRec) :
    (s.setChan ch r).status = s.status := rfl
@[simp] theorem State.setChan_headOpen (s : State) (ch : Chan) (r : ChanRec) :
    (s.setChan ch r).headOpen = s.headOpen := rfl
@[simp] theorem State.setChan_pending (s : State) (ch : Chan) (r : ChanRec) :
    (s.setChan ch r).pending = s.pending := rfl

/-! `State.dropAssembly`: field by field. -/
@[simp] theorem State.dropAssembly_timing (s : State) (ch : Chan) :
    (s.dropAssembly ch).timing = s.timing := rfl
@[simp] theorem State.dropAssembly_link (s : State) (ch : Chan) :
    (s.dropAssembly ch).link = s.link := rfl
@[simp] theorem State.dropAssembly_comp (s : State) (ch : Chan) :
    (s.dropAssembly ch).comp = s.comp := rfl
@[simp] theorem State.dropAssembly_cset (s : State) (ch : Chan) :
    (s.dropAssembly ch).cset = s.cset := rfl
@[simp] theorem State.dropAssembly_store (s : State) (ch : Chan) :
    (s.dropAssembly ch).store = s.store := rfl
@[simp] theorem State.dropAssembly_pkt (s : State) (ch : Chan) :
    (s.dropAssembly ch).pkt = s.pkt := rfl
@[simp] theorem State.dropAssembly_chn (s : State) (ch : Chan) :
    (s.dropAssembly ch).chn = s.chn.set ch { s.chan ch with state := .idle, assembly := none } := rfl
@[simp] theorem State.dropAssembly_status (s : State) (ch : Chan) :
    (s.dropAssembly ch).status = s.status := rfl
@[simp] theorem State.dropAssembly_headOpen (s : State) (ch : Chan) :
    (s.dropAssembly ch).headOpen = s.headOpen := rfl
@[simp] theorem State.dropAssembly_pending (s : State) (ch : Chan) :
    (s.dropAssembly ch).pending = s.pending := rfl

/-! `State.advance`: field by field. -/
@[simp] theorem State.advance_timing (s : State) (ch : Chan) (seq : SeqNo) :
    (s.advance ch seq).timing = s.timing := rfl
@[simp] theorem State.advance_link (s : State) (ch : Chan) (seq : SeqNo) :
    (s.advance ch seq).link = s.link := rfl
@[simp] theorem State.advance_comp (s : State) (ch : Chan) (seq : SeqNo) :
    (s.advance ch seq).comp = s.comp := rfl
@[simp] theorem State.advance_cset (s : State) (ch : Chan) (seq : SeqNo) :
    (s.advance ch seq).cset = s.cset := rfl
@[simp] theorem State.advance_store (s : State) (ch : Chan) (seq : SeqNo) :
    (s.advance ch seq).store = s.store := rfl
@[simp] theorem State.advance_pkt (s : State) (ch : Chan) (seq : SeqNo) :
    (s.advance ch seq).pkt = s.pkt := rfl
@[simp] theorem State.advance_chn (s : State) (ch : Chan) (seq : SeqNo) :
    (s.advance ch seq).chn = s.chn.set ch { s.chan ch with last := seq } := rfl
@[simp] theorem State.advance_status (s : State) (ch : Chan) (seq : SeqNo) :
    (s.advance ch seq).status = s.status := rfl
@[simp] theorem State.advance_headOpen (s : State) (ch : Chan) (seq : SeqNo) :
    (s.advance ch seq).headOpen = s.headOpen := rfl
@[simp] theorem State.advance_pending (s : State) (ch : Chan) (seq : SeqNo) :
    (s.advance ch seq).pending = s.pending := rfl

/-! `State.reserve`: field by field. -/
@[simp] theorem State.reserve_timing (s : State) (ch : Chan) :
    (s.reserve ch).timing = s.timing := rfl
@[simp] theorem State.reserve_link (s : State) (ch : Chan) :
    (s.reserve ch).link = s.link := rfl
@[simp] theorem State.reserve_comp (s : State) (ch : Chan) :
    (s.reserve ch).comp = s.comp := rfl
@[simp] theorem State.reserve_cset (s : State) (ch : Chan) :
    (s.reserve ch).cset = s.cset := rfl
@[simp] theorem State.reserve_store (s : State) (ch : Chan) :
    (s.reserve ch).store = s.store := rfl
@[simp] theorem State.reserve_pkt (s : State) (ch : Chan) :
    (s.reserve ch).pkt = { s.pkt with reserved := ch :: s.pkt.reserved } := rfl
@[simp] theorem State.reserve_chn (s : State) (ch : Chan) :
    (s.reserve ch).chn = s.chn := rfl
@[simp] theorem State.reserve_status (s : State) (ch : Chan) :
    (s.reserve ch).status = s.status := rfl
@[simp] theorem State.reserve_headOpen (s : State) (ch : Chan) :
    (s.reserve ch).headOpen = s.headOpen := rfl
@[simp] theorem State.reserve_pending (s : State) (ch : Chan) :
    (s.reserve ch).pending = s.pending := rfl

/-! `State.fillReserved`: field by field. -/
@[simp] theorem State.fillReserved_timing (s : State) (ch : Chan) (packet : List Byte) (marked : Bool) :
    (s.fillReserved ch packet marked).timing = s.timing := rfl
@[simp] theorem State.fillReserved_link (s : State) (ch : Chan) (packet : List Byte) (marked : Bool) :
    (s.fillReserved ch packet marked).link = s.link := rfl
@[simp] theorem State.fillReserved_comp (s : State) (ch : Chan) (packet : List Byte) (marked : Bool) :
    (s.fillReserved ch packet marked).comp = s.comp := rfl
@[simp] theorem State.fillReserved_cset (s : State) (ch : Chan) (packet : List Byte) (marked : Bool) :
    (s.fillReserved ch packet marked).cset = s.cset := rfl
@[simp] theorem State.fillReserved_store (s : State) (ch : Chan) (packet : List Byte) (marked : Bool) :
    (s.fillReserved ch packet marked).store = s.store := rfl
@[simp] theorem State.fillReserved_pkt (s : State) (ch : Chan) (packet : List Byte) (marked : Bool) :
    (s.fillReserved ch packet marked).pkt
      = ({ s.pkt with reserved := s.pkt.reserved.erase ch }).fill packet marked := rfl
@[simp] theorem State.fillReserved_chn (s : State) (ch : Chan) (packet : List Byte) (marked : Bool) :
    (s.fillReserved ch packet marked).chn = s.chn := rfl
@[simp] theorem State.fillReserved_status (s : State) (ch : Chan) (packet : List Byte) (marked : Bool) :
    (s.fillReserved ch packet marked).status = s.status := rfl
@[simp] theorem State.fillReserved_headOpen (s : State) (ch : Chan) (packet : List Byte) (marked : Bool) :
    (s.fillReserved ch packet marked).headOpen = s.headOpen := rfl
@[simp] theorem State.fillReserved_pending (s : State) (ch : Chan) (packet : List Byte) (marked : Bool) :
    (s.fillReserved ch packet marked).pending = s.pending := rfl

/-! `State.answerWith`: field by field. -/
@[simp] theorem State.answerWith_timing (s : State) (ch : Chan) (seq : SeqNo) (kind : Byte)
    (code : Code) (p : List Byte) (marked : Bool) :
    (s.answerWith ch seq kind code p marked).timing = s.timing := rfl
@[simp] theorem State.answerWith_link (s : State) (ch : Chan) (seq : SeqNo) (kind : Byte)
    (code : Code) (p : List Byte) (marked : Bool) :
    (s.answerWith ch seq kind code p marked).link = s.link := rfl
@[simp] theorem State.answerWith_comp (s : State) (ch : Chan) (seq : SeqNo) (kind : Byte)
    (code : Code) (p : List Byte) (marked : Bool) :
    (s.answerWith ch seq kind code p marked).comp = s.comp := rfl
@[simp] theorem State.answerWith_cset (s : State) (ch : Chan) (seq : SeqNo) (kind : Byte)
    (code : Code) (p : List Byte) (marked : Bool) :
    (s.answerWith ch seq kind code p marked).cset = s.cset := rfl
@[simp] theorem State.answerWith_store (s : State) (ch : Chan) (seq : SeqNo) (kind : Byte)
    (code : Code) (p : List Byte) (marked : Bool) :
    (s.answerWith ch seq kind code p marked).store = s.store := rfl
@[simp] theorem State.answerWith_pkt (s : State) (ch : Chan) (seq : SeqNo) (kind : Byte)
    (code : Code) (p : List Byte) (marked : Bool) :
    (s.answerWith ch seq kind code p marked).pkt
      = ({ s.pkt with reserved := s.pkt.reserved.erase ch }).fill (s.packet ch seq kind code p) marked := rfl
@[simp] theorem State.answerWith_chn (s : State) (ch : Chan) (seq : SeqNo) (kind : Byte)
    (code : Code) (p : List Byte) (marked : Bool) :
    (s.answerWith ch seq kind code p marked).chn
      = s.chn.set ch { s.chan ch with cache := some (s.packet ch seq kind code p) } := rfl
@[simp] theorem State.answerWith_status (s : State) (ch : Chan) (seq : SeqNo) (kind : Byte)
    (code : Code) (p : List Byte) (marked : Bool) :
    (s.answerWith ch seq kind code p marked).status = s.status := rfl
@[simp] theorem State.answerWith_headOpen (s : State) (ch : Chan) (seq : SeqNo) (kind : Byte)
    (code : Code) (p : List Byte) (marked : Bool) :
    (s.answerWith ch seq kind code p marked).headOpen = s.headOpen := rfl
@[simp] theorem State.answerWith_pending (s : State) (ch : Chan) (seq : SeqNo) (kind : Byte)
    (code : Code) (p : List Byte) (marked : Bool) :
    (s.answerWith ch seq kind code p marked).pending = s.pending := rfl

/-! `State.raise`: field by field. -/
@[simp] theorem State.raise_timing (s : State) (f : EventFlag) :
    (s.raise f).timing = s.timing := rfl
@[simp] theorem State.raise_link (s : State) (f : EventFlag) :
    (s.raise f).link = s.link := rfl
@[simp] theorem State.raise_comp (s : State) (f : EventFlag) :
    (s.raise f).comp = s.comp := rfl
@[simp] theorem State.raise_cset (s : State) (f : EventFlag) :
    (s.raise f).cset = s.cset := rfl
@[simp] theorem State.raise_store (s : State) (f : EventFlag) :
    (s.raise f).store = s.store := rfl
@[simp] theorem State.raise_pkt (s : State) (f : EventFlag) :
    (s.raise f).pkt = s.pkt := rfl
@[simp] theorem State.raise_chn (s : State) (f : EventFlag) :
    (s.raise f).chn = s.chn := rfl
@[simp] theorem State.raise_status (s : State) (f : EventFlag) :
    (s.raise f).status = { s.status with flags := s.status.flags.raise f } := rfl
@[simp] theorem State.raise_headOpen (s : State) (f : EventFlag) :
    (s.raise f).headOpen = s.headOpen := rfl
@[simp] theorem State.raise_pending (s : State) (f : EventFlag) :
    (s.raise f).pending = s.pending := rfl

/-! `State.putLine`: field by field. -/
@[simp] theorem State.putLine_timing (s : State) (type : LineType) (data : List DataWord) (source : LineSource)
    (offset : Option Nat) :
    (s.putLine type data source offset).timing = s.timing := rfl
@[simp] theorem State.putLine_link (s : State) (type : LineType) (data : List DataWord) (source : LineSource)
    (offset : Option Nat) :
    (s.putLine type data source offset).link
      = { s.link with vout := .line { type := type, data := data, source := source, offset := offset }, cut := false } := rfl
@[simp] theorem State.putLine_comp (s : State) (type : LineType) (data : List DataWord) (source : LineSource)
    (offset : Option Nat) :
    (s.putLine type data source offset).comp = s.comp := rfl
@[simp] theorem State.putLine_cset (s : State) (type : LineType) (data : List DataWord) (source : LineSource)
    (offset : Option Nat) :
    (s.putLine type data source offset).cset = s.cset := rfl
@[simp] theorem State.putLine_store (s : State) (type : LineType) (data : List DataWord) (source : LineSource)
    (offset : Option Nat) :
    (s.putLine type data source offset).store = s.store := rfl
@[simp] theorem State.putLine_pkt (s : State) (type : LineType) (data : List DataWord) (source : LineSource)
    (offset : Option Nat) :
    (s.putLine type data source offset).pkt = s.pkt := rfl
@[simp] theorem State.putLine_chn (s : State) (type : LineType) (data : List DataWord) (source : LineSource)
    (offset : Option Nat) :
    (s.putLine type data source offset).chn = s.chn := rfl
@[simp] theorem State.putLine_status (s : State) (type : LineType) (data : List DataWord) (source : LineSource)
    (offset : Option Nat) :
    (s.putLine type data source offset).status = s.status := rfl
@[simp] theorem State.putLine_headOpen (s : State) (type : LineType) (data : List DataWord) (source : LineSource)
    (offset : Option Nat) :
    (s.putLine type data source offset).headOpen = s.headOpen := rfl
@[simp] theorem State.putLine_pending (s : State) (type : LineType) (data : List DataWord) (source : LineSource)
    (offset : Option Nat) :
    (s.putLine type data source offset).pending = s.pending := rfl

/-! `State.activeAcquire`: field by field. -/
@[simp] theorem State.activeAcquire_timing (s : State) (id : Nat) :
    (s.activeAcquire id).timing = s.timing := rfl
@[simp] theorem State.activeAcquire_link (s : State) (id : Nat) :
    (s.activeAcquire id).link = s.link := rfl
@[simp] theorem State.activeAcquire_comp (s : State) (id : Nat) :
    (s.activeAcquire id).comp = s.comp := rfl
@[simp] theorem State.activeAcquire_cset (s : State) (id : Nat) :
    (s.activeAcquire id).cset = s.cset := rfl
@[simp] theorem State.activeAcquire_store (s : State) (id : Nat) :
    (s.activeAcquire id).store = s.store.update id fun h => { h with active := h.active + 1 } := rfl
@[simp] theorem State.activeAcquire_pkt (s : State) (id : Nat) :
    (s.activeAcquire id).pkt = s.pkt := rfl
@[simp] theorem State.activeAcquire_chn (s : State) (id : Nat) :
    (s.activeAcquire id).chn = s.chn := rfl
@[simp] theorem State.activeAcquire_status (s : State) (id : Nat) :
    (s.activeAcquire id).status = s.status := rfl
@[simp] theorem State.activeAcquire_headOpen (s : State) (id : Nat) :
    (s.activeAcquire id).headOpen = s.headOpen := rfl
@[simp] theorem State.activeAcquire_pending (s : State) (id : Nat) :
    (s.activeAcquire id).pending = s.pending := rfl

/-! `State.finishBulk`: field by field. -/
@[simp] theorem State.finishBulk_timing (s : State) (ch : Chan) (kind : Byte) (code : Code) (p : List Byte) :
    (s.finishBulk ch kind code p).timing = s.timing := rfl
@[simp] theorem State.finishBulk_link (s : State) (ch : Chan) (kind : Byte) (code : Code) (p : List Byte) :
    (s.finishBulk ch kind code p).link = s.link := rfl
@[simp] theorem State.finishBulk_comp (s : State) (ch : Chan) (kind : Byte) (code : Code) (p : List Byte) :
    (s.finishBulk ch kind code p).comp = s.comp := rfl
@[simp] theorem State.finishBulk_cset (s : State) (ch : Chan) (kind : Byte) (code : Code) (p : List Byte) :
    (s.finishBulk ch kind code p).cset = s.cset := rfl
@[simp] theorem State.finishBulk_store (s : State) (ch : Chan) (kind : Byte) (code : Code) (p : List Byte) :
    (s.finishBulk ch kind code p).store = s.store := rfl
@[simp] theorem State.finishBulk_pkt (s : State) (ch : Chan) (kind : Byte) (code : Code) (p : List Byte) :
    (s.finishBulk ch kind code p).pkt
      = ({ s.pkt with reserved := s.pkt.reserved.erase ch }).fill (s.packet ch (s.chan ch).last kind code p) false := rfl
@[simp] theorem State.finishBulk_status (s : State) (ch : Chan) (kind : Byte) (code : Code) (p : List Byte) :
    (s.finishBulk ch kind code p).status = s.status := rfl
@[simp] theorem State.finishBulk_headOpen (s : State) (ch : Chan) (kind : Byte) (code : Code) (p : List Byte) :
    (s.finishBulk ch kind code p).headOpen = s.headOpen := rfl
@[simp] theorem State.finishBulk_pending (s : State) (ch : Chan) (kind : Byte) (code : Code) (p : List Byte) :
    (s.finishBulk ch kind code p).pending = s.pending := rfl

/-! `State.atOutputHead`: field by field. -/
@[simp] theorem State.atOutputHead_timing (s : State) (f : FrameNo) :
    (s.atOutputHead f).timing = { s.timing with frame := some f } := rfl
@[simp] theorem State.atOutputHead_link (s : State) (f : FrameNo) :
    (s.atOutputHead f).link = { s.link with nextY := 0 } := rfl
@[simp] theorem State.atOutputHead_comp (s : State) (f : FrameNo) :
    (s.atOutputHead f).comp = s.comp.atHead s.timing.lock := rfl
@[simp] theorem State.atOutputHead_cset (s : State) (f : FrameNo) :
    (s.atOutputHead f).cset = s.cset := rfl
@[simp] theorem State.atOutputHead_store (s : State) (f : FrameNo) :
    (s.atOutputHead f).store = s.store := rfl
@[simp] theorem State.atOutputHead_pkt (s : State) (f : FrameNo) :
    (s.atOutputHead f).pkt = { s.pkt with outRange := s.status.params.range } := rfl
@[simp] theorem State.atOutputHead_chn (s : State) (f : FrameNo) :
    (s.atOutputHead f).chn = s.chn.map ChanRec.countHead := rfl
@[simp] theorem State.atOutputHead_status (s : State) (f : FrameNo) :
    (s.atOutputHead f).status = s.status := rfl
@[simp] theorem State.atOutputHead_headOpen (s : State) (f : FrameNo) :
    (s.atOutputHead f).headOpen = true := rfl
@[simp] theorem State.atOutputHead_pending (s : State) (f : FrameNo) :
    (s.atOutputHead f).pending = s.pending := rfl

/-! `State.overlayReset`: field by field. -/
@[simp] theorem State.overlayReset_timing (s : State) (path : ResetPath) :
    (s.overlayReset path).timing = s.timing := rfl
@[simp] theorem State.overlayReset_link (s : State) (path : ResetPath) :
    (s.overlayReset path).link = s.link := rfl
@[simp] theorem State.overlayReset_comp (s : State) (path : ResetPath) :
    (s.overlayReset path).comp = s.comp.softReset := rfl
@[simp] theorem State.overlayReset_cset (s : State) (path : ResetPath) :
    (s.overlayReset path).cset = ChangeSet.reset := rfl
@[simp] theorem State.overlayReset_store (s : State) (path : ResetPath) :
    (s.overlayReset path).store = s.store.overlayReset := rfl
@[simp] theorem State.overlayReset_pkt (s : State) (path : ResetPath) :
    (s.overlayReset path).pkt = s.pkt := rfl
@[simp] theorem State.overlayReset_chn (s : State) (path : ResetPath) :
    (s.overlayReset path).chn = s.chn := rfl
@[simp] theorem State.overlayReset_status (s : State) (path : ResetPath) :
    (s.overlayReset path).status = { s.status with resetting := none, lastReset := .soft .overlay path } := rfl
@[simp] theorem State.overlayReset_headOpen (s : State) (path : ResetPath) :
    (s.overlayReset path).headOpen = s.headOpen := rfl
@[simp] theorem State.overlayReset_pending (s : State) (path : ResetPath) :
    (s.overlayReset path).pending = s.pending := rfl

/-! `State.fullReset`: field by field. -/
@[simp] theorem State.fullReset_timing (s : State) (path : ResetPath) :
    (s.fullReset path).timing = s.timing := rfl
@[simp] theorem State.fullReset_link (s : State) (path : ResetPath) :
    (s.fullReset path).link = s.link := rfl
@[simp] theorem State.fullReset_comp (s : State) (path : ResetPath) :
    (s.fullReset path).comp = s.comp.softReset := rfl
@[simp] theorem State.fullReset_cset (s : State) (path : ResetPath) :
    (s.fullReset path).cset = ChangeSet.reset := rfl
@[simp] theorem State.fullReset_store (s : State) (path : ResetPath) :
    (s.fullReset path).store = s.store.fullReset := rfl
@[simp] theorem State.fullReset_pkt (s : State) (path : ResetPath) :
    (s.fullReset path).pkt = { s.pkt with filled := [], reserved := [] } := rfl
@[simp] theorem State.fullReset_chn (s : State) (path : ResetPath) :
    (s.fullReset path).chn = ChannelUnit.reset := rfl
@[simp] theorem State.fullReset_status (s : State) (path : ResetPath) :
    (s.fullReset path).status
      = { s.status with resetting := none, flags := Flags.clear, lastReset := .soft .full path } := rfl
@[simp] theorem State.fullReset_headOpen (s : State) (path : ResetPath) :
    (s.fullReset path).headOpen = s.headOpen := rfl
@[simp] theorem State.fullReset_pending (s : State) (path : ResetPath) :
    (s.fullReset path).pending = s.pending := rfl

/-! `State.completeWrite`: field by field. -/
@[simp] theorem State.completeWrite_timing (s : State) (id : Nat) (ch : Chan) (offset : Nat) (data : List Byte) :
    (s.completeWrite id ch offset data).timing = s.timing := rfl
@[simp] theorem State.completeWrite_link (s : State) (id : Nat) (ch : Chan) (offset : Nat) (data : List Byte) :
    (s.completeWrite id ch offset data).link = s.link := rfl
@[simp] theorem State.completeWrite_comp (s : State) (id : Nat) (ch : Chan) (offset : Nat) (data : List Byte) :
    (s.completeWrite id ch offset data).comp = s.comp := rfl
@[simp] theorem State.completeWrite_cset (s : State) (id : Nat) (ch : Chan) (offset : Nat) (data : List Byte) :
    (s.completeWrite id ch offset data).cset = s.cset := rfl
@[simp] theorem State.completeWrite_store (s : State) (id : Nat) (ch : Chan) (offset : Nat) (data : List Byte) :
    (s.completeWrite id ch offset data).store = (s.store.land id offset data).dequeue id := rfl
@[simp] theorem State.completeWrite_status (s : State) (id : Nat) (ch : Chan) (offset : Nat) (data : List Byte) :
    (s.completeWrite id ch offset data).status = s.status := rfl
@[simp] theorem State.completeWrite_headOpen (s : State) (id : Nat) (ch : Chan) (offset : Nat) (data : List Byte) :
    (s.completeWrite id ch offset data).headOpen = s.headOpen := rfl
@[simp] theorem State.completeWrite_pending (s : State) (id : Nat) (ch : Chan) (offset : Nat) (data : List Byte) :
    (s.completeWrite id ch offset data).pending = s.pending := rfl

/-! `Store.update`: field by field. -/
@[simp] theorem Store.update_mem (st : Store) (id : Nat) (f : Segment → Segment) :
    (st.update id f).mem = st.mem := rfl
@[simp] theorem Store.update_freeList (st : Store) (id : Nat) (f : Segment → Segment) :
    (st.update id f).freeList = st.freeList := rfl
@[simp] theorem Store.update_dir (st : Store) (id : Nat) (f : Segment → Segment) :
    (st.update id f).dir = st.dir.map fun g => if g.id == id then f g else g := rfl
@[simp] theorem Store.update_queue (st : Store) (id : Nat) (f : Segment → Segment) :
    (st.update id f).queue = st.queue := rfl

/-! `Store.free`: field by field. -/
@[simp] theorem Store.free_mem (st : Store) (g : Segment) :
    (st.free g).mem = st.mem := rfl
@[simp] theorem Store.free_freeList (st : Store) (g : Segment) :
    (st.free g).freeList = st.freeList ++ g.blocks := rfl
@[simp] theorem Store.free_dir (st : Store) (g : Segment) :
    (st.free g).dir = st.dir.filter fun h => h.id != g.id := rfl
@[simp] theorem Store.free_queue (st : Store) (g : Segment) :
    (st.free g).queue = st.queue := rfl

/-! `Store.enqueue`: field by field. -/
@[simp] theorem Store.enqueue_mem (st : Store) (id : Nat) (op : StoreOp) :
    (st.enqueue id op).mem = st.mem := rfl
@[simp] theorem Store.enqueue_freeList (st : Store) (id : Nat) (op : StoreOp) :
    (st.enqueue id op).freeList = st.freeList := rfl
@[simp] theorem Store.enqueue_dir (st : Store) (id : Nat) (op : StoreOp) :
    (st.enqueue id op).dir = (st.update id fun g => { g with queued := g.queued + 1 }).dir := rfl
@[simp] theorem Store.enqueue_queue (st : Store) (id : Nat) (op : StoreOp) :
    (st.enqueue id op).queue = st.queue ++ [op] := rfl

/-! `Store.dequeue`: field by field. -/
@[simp] theorem Store.dequeue_mem (st : Store) (id : Nat) :
    (st.dequeue id).mem = st.mem := rfl
@[simp] theorem Store.dequeue_freeList (st : Store) (id : Nat) :
    (st.dequeue id).freeList = st.freeList := rfl
@[simp] theorem Store.dequeue_dir (st : Store) (id : Nat) :
    (st.dequeue id).dir = (st.update id fun g => { g with queued := g.queued - 1 }).dir := rfl
@[simp] theorem Store.dequeue_queue (st : Store) (id : Nat) :
    (st.dequeue id).queue = st.queue.tail := rfl

/-! `Store.create`: field by field. -/
@[simp] theorem Store.create_mem (st : Store) (id length : Nat) :
    (st.create id length).mem = (st.freeList.take (blocksFor length)).foldl Memory.zeroBlock st.mem := rfl
@[simp] theorem Store.create_freeList (st : Store) (id length : Nat) :
    (st.create id length).freeList = st.freeList.drop (blocksFor length) := rfl
@[simp] theorem Store.create_dir (st : Store) (id length : Nat) :
    (st.create id length).dir = insertSeg
      { id := id, state := .loading, length := length, blocks := st.freeList.take (blocksFor length), active := 0,
        staged := 0, queued := 0, check := none } st.dir := rfl
@[simp] theorem Store.create_queue (st : Store) (id length : Nat) :
    (st.create id length).queue = st.queue := rfl

/-! `Store.fullReset`: field by field. -/
@[simp] theorem Store.fullReset_mem (st : Store) : st.fullReset.mem = st.mem := by
  unfold Store.fullReset; with_reducible rfl
@[simp] theorem Store.fullReset_freeList (st : Store) :
    st.fullReset.freeList = List.range Config.blockCount := by
  unfold Store.fullReset; with_reducible rfl
@[simp] theorem Store.fullReset_dir (st : Store) : st.fullReset.dir = [] := by
  unfold Store.fullReset; with_reducible rfl
@[simp] theorem Store.fullReset_queue (st : Store) : st.fullReset.queue = [] := by
  unfold Store.fullReset; with_reducible rfl

/-! `PacketUnit.fill`: field by field. -/
@[simp] theorem PacketUnit.fill_inRange (q : PacketUnit) (packet : List Byte) (marked : Bool) :
    (q.fill packet marked).inRange = q.inRange := rfl
@[simp] theorem PacketUnit.fill_outRange (q : PacketUnit) (packet : List Byte) (marked : Bool) :
    (q.fill packet marked).outRange = q.outRange := rfl
@[simp] theorem PacketUnit.fill_reserved (q : PacketUnit) (packet : List Byte) (marked : Bool) :
    (q.fill packet marked).reserved = q.reserved := rfl
@[simp] theorem PacketUnit.fill_filled (q : PacketUnit) (packet : List Byte) (marked : Bool) :
    (q.fill packet marked).filled
      = q.filled ++ [{ packet := packet, marked := marked, fillTime := q.fillClock }] := rfl
@[simp] theorem PacketUnit.fill_fillClock (q : PacketUnit) (packet : List Byte) (marked : Bool) :
    (q.fill packet marked).fillClock = q.fillClock + 1 := rfl

end Sys2Proof.Machine
end

