-- ==== Sys2Proof/Laws/Channels.lean ====
section
/-! SUPPORT. Laws/Channels.lean: the channel records, the response queue's admissions, an open head, and the lemma
that a whole message in sequence on an idle channel completes. -/

namespace Sys2Proof.Machine

/-! ### Channel records -/

@[simp] theorem ChannelUnit.get_set_same (c : ChannelUnit) (ch : Chan) (r : ChanRec) : (c.set ch r).get ch = r := by
  match ch with
  | 0 => rfl
  | 1 => rfl
  | 2 => rfl
  | 3 => rfl

theorem ChannelUnit.get_set_other (c : ChannelUnit) {ch d : Chan} (r : ChanRec) (h : d ≠ ch) :
    (c.set ch r).get d = c.get d := by
  match ch, d with
  | 0, 0 | 1, 1 | 2, 2 | 3, 3 => exact absurd rfl h
  | 0, 1 | 0, 2 | 0, 3 | 1, 0 | 1, 2 | 1, 3 | 2, 0 | 2, 1 | 2, 3 | 3, 0 | 3, 1 | 3, 2 => rfl

@[simp] theorem ChannelUnit.set_set (c : ChannelUnit) (ch : Chan) (r q : ChanRec) :
    (c.set ch r).set ch q = c.set ch q := by
  match ch with
  | 0 => rfl
  | 1 => rfl
  | 2 => rfl
  | 3 => rfl

@[simp] theorem ChannelUnit.set_get (c : ChannelUnit) (ch : Chan) : c.set ch (c.get ch) = c := by
  match ch with
  | 0 => rfl
  | 1 => rfl
  | 2 => rfl
  | 3 => rfl

@[simp] theorem ChannelUnit.get_map (c : ChannelUnit) (f : ChanRec → ChanRec) (ch : Chan) :
    (c.map f).get ch = f (c.get ch) := by
  match ch with
  | 0 => rfl
  | 1 => rfl
  | 2 => rfl
  | 3 => rfl

/-- A channel's record after it is replaced. -/
@[simp] theorem State.chan_setChan_same (s : State) (ch : Chan) (r : ChanRec) : (s.setChan ch r).chan ch = r :=
  ChannelUnit.get_set_same s.chn ch r

/-- The other channels keep their records. -/
theorem State.chan_setChan_other (s : State) {ch d : Chan} (r : ChanRec) (h : d ≠ ch) :
    (s.setChan ch r).chan d = s.chan d :=
  ChannelUnit.get_set_other s.chn r h

@[simp] theorem State.setChan_setChan (s : State) (ch : Chan) (r q : ChanRec) :
    (s.setChan ch r).setChan ch q = s.setChan ch q := by
  unfold State.setChan
  simp

@[simp] theorem State.setChan_chan (s : State) (ch : Chan) : s.setChan ch (s.chan ch) = s := by
  unfold State.setChan State.chan
  simp

/-- Dropping an assembly forgets what the record's state and assembly were. -/
theorem State.dropAssembly_setChan (s : State) (ch : Chan) (x : ChanState) (y : Option Assembly) :
    (s.setChan ch { s.chan ch with state := x, assembly := y }).dropAssembly ch = s.dropAssembly ch := by
  unfold State.dropAssembly
  simp

/-! ### The response queue -/

/-- An unreserved packet is kept at the tail, or not kept (R136). -/
theorem State.offer_cases (s : State) (packet : List Byte) :
    (s.pkt.room = true ∧ s.offer packet = { s with pkt := s.pkt.fill packet false }) ∨
      (s.pkt.room = false ∧ s.offer packet = s) := by
  unfold State.offer
  cases h : s.pkt.room <;> simp

/-- A notice is admitted at the tail, sets NOTICE_DROPPED, or leaves no trace (R183). -/
theorem State.offerNotice_cases (s : State) (k : NoticeKind) (data : List Byte) :
    (s.status.params.noticeEnabled k = true ∧ s.pkt.room = true ∧
        s.offerNotice k data = { s with pkt := s.pkt.fill (s.noticePacket k data) false }) ∨
      (s.status.params.noticeEnabled k = true ∧ s.pkt.room = false ∧ s.offerNotice k data = s.raise .noticeDropped) ∨
      (s.status.params.noticeEnabled k = false ∧ s.offerNotice k data = s) := by
  unfold State.offerNotice
  cases h : s.status.params.noticeEnabled k <;> cases h' : s.pkt.room <;> simp

/-- A notice changes at most the response queue and the flags. -/
theorem State.offerNotice_frame (s : State) (k : NoticeKind) (data : List Byte) :
    (s.offerNotice k data).timing = s.timing ∧ (s.offerNotice k data).link = s.link ∧
      (s.offerNotice k data).comp = s.comp ∧ (s.offerNotice k data).cset = s.cset ∧
      (s.offerNotice k data).store = s.store ∧ (s.offerNotice k data).chn = s.chn ∧
      (s.offerNotice k data).headOpen = s.headOpen ∧ (s.offerNotice k data).pending = s.pending := by
  rcases s.offerNotice_cases k data with ⟨_, _, h⟩ | ⟨_, _, h⟩ | ⟨_, h⟩ <;> simp [h]

/-- A reservation that is filled leaves the count of entries as it was before the reservation, plus one filled. -/
theorem State.reserve_fillReserved (s : State) (ch : Chan) (packet : List Byte) (marked : Bool) :
    (s.reserve ch).fillReserved ch packet marked = { s with pkt := s.pkt.fill packet marked } := by
  unfold State.reserve State.fillReserved
  simp [PacketUnit.fill]

/-! ### An open head -/

/-- With no head open nothing is left to do. -/
@[simp] theorem State.settle_of_closed (s : State) (h : s.headOpen = false) : s.settle = s := by
  unfold State.settle
  simp [h]

/-- After settling no head is open. -/
@[simp] theorem State.settle_headOpen (s : State) : s.settle.headOpen = false := by
  unfold State.settle
  cases h : s.headOpen <;> simp [h]

/-- Settling twice is settling once. -/
@[simp] theorem State.settle_settle (s : State) : s.settle.settle = s.settle :=
  s.settle.settle_of_closed s.settle_headOpen

/-! ### Kinds -/

@[simp] theorem Kind.ofCode?_code (k : Kind) : Kind.ofCode? k.code = some k := by
  cases k <;> rfl

theorem Kind.code_ne_resync {k : Kind} (h : k ≠ .resync) : k.code ≠ Kind.resync.code := by
  cases k <;> first | decide | exact absurd rfl h

/-! ### A whole message -/

/-- A message completes alike whether its channel is still assembling it or idle. -/
theorem State.complete_setChan (s : State) (ch : Chan) (x : ChanState) (y : Option Assembly) (seq : SeqNo)
    (kind : Byte) (p : List Byte) :
    (s.setChan ch { s.chan ch with state := x, assembly := y }).complete ch seq kind p = s.complete ch seq kind p := by
  unfold State.complete
  rw [State.dropAssembly_setChan]

/-- The channel is assembling a message of which these payloads have arrived. -/
def State.joining (s : State) (ch : Chan) (seq : SeqNo) (kind : Byte) (frags : List (List Byte)) : State :=
  s.setChan ch { s.chan ch with
    state := .assembling, assembly := some { seq := seq, kind := kind, frags := frags, heads := 0 } }

/-- A fragment of a message of kind `k`. -/
def Kind.piece (k : Kind) (ch : Chan) (seq : SeqNo) (c : Nat × Bool × List Byte) : Fragment :=
  { ch := ch, index := c.1, last := c.2.1, seq := seq, kind := k.code, payload := c.2.2 }

theorem fragmentsOf_eq (k : Kind) (ch : Chan) (seq : SeqNo) (p : List Byte) :
    fragmentsOf k ch seq p = (cutPayload 8 0 p).map (k.piece ch seq) := rfl

/-- A fragment at an assembling channel is joined. -/
theorem State.fragment_joining (s : State) (ch : Chan) (seq : SeqNo) {k : Kind} (hk : k ≠ .resync)
    (frags : List (List Byte)) (c : Nat × Bool × List Byte) (hi : c.1 = frags.length) :
    (s.joining ch seq k.code frags).fragment (k.piece ch seq c) =
      if (k.piece ch seq c).badSize then (s.joining ch seq k.code frags).refuseSize (k.piece ch seq c)
      else if c.2.1 then s.complete ch seq k.code (frags ++ [c.2.2]).flatten
      else s.joining ch seq k.code (frags ++ [c.2.2]) := by
  unfold State.fragment
  rw [if_neg (show (k.piece ch seq c).kind ≠ Kind.resync.code from Kind.code_ne_resync hk)]
  simp only [State.joining, Kind.piece, State.chan_setChan_same]
  unfold State.assemblingFragment
  simp only [if_true, hi, State.chan_setChan_same, State.setChan_setChan, State.complete_setChan]

theorem State.fold_joining (s : State) (ch : Chan) (seq : SeqNo) {k : Kind} (hk : k ≠ .resync) (fuel : Nat)
    (frags : List (List Byte)) (p : List Byte) (hf : frags.length + fuel = 8) (hfuel : 0 < fuel)
    (hp : p.length ≤ Config.fragmentBytes * fuel) :
    ((cutPayload fuel frags.length p).map (k.piece ch seq)).foldl State.fragment (s.joining ch seq k.code frags)
      = s.complete ch seq k.code (frags.flatten ++ p) := by
  induction fuel generalizing frags p with
  | zero => omega
  | succ n ih =>
    unfold cutPayload
    split
    · rw [List.map_cons, List.map_nil, List.foldl_cons, List.foldl_nil, s.fragment_joining ch seq hk frags _ rfl]
      simp [Kind.piece, Fragment.badSize]
    · next hlen =>
      unfold Config.fragmentBytes at hlen hp
      have hn : 0 < n := by
        rcases Nat.eq_zero_or_pos n with h | h
        · subst h; omega
        · exact h
      rw [List.map_cons, List.foldl_cons, s.fragment_joining ch seq hk frags _ rfl]
      have hl : (p.take 1024).length = 1024 := by rw [List.length_take]; omega
      have hbad : (k.piece ch seq (frags.length, false, p.take 1024)).badSize = false := by
        simp only [Fragment.badSize, Kind.piece, Config.fragmentBytes, hl]
        have : (frags.length == 7) = false := by simp; omega
        simp [this]
      have hlen' : (frags ++ [p.take 1024]).length = frags.length + 1 := by simp
      have hrec := ih (frags ++ [p.take 1024]) (p.drop 1024) (by rw [hlen']; omega) hn
        (by unfold Config.fragmentBytes; rw [List.length_drop]; omega)
      rw [hlen'] at hrec
      unfold Config.fragmentBytes
      rw [if_neg (by rw [hbad]; simp)]
      simp only [Bool.false_eq_true, if_false]
      rw [hrec]
      simp

/-- A whole message of up to 8192 bytes, in sequence on an idle channel, completes (R143, R146, R149). -/
theorem State.receive_of_next (s : State) {k : Kind} (ch : Chan) (seq : SeqNo) (p : List Byte)
    (hk : k ≠ .resync) (hlines : s.takesLines = true) (hidle : (s.chan ch).state = .idle)
    (hseq : seq = (s.chan ch).last + 1) (hp : p.length ≤ 8192) :
    s.receive k ch seq p = s.complete ch seq k.code p := by
  have hne : seq ≠ (s.chan ch).last := by
    intro h
    rw [h] at hseq
    have : ∀ x : BitVec 4, x ≠ x + 1 := by decide
    exact this _ hseq
  have first (c : Nat × Bool × List Byte) (h0 : c.1 = 0) :
      s.fragment (k.piece ch seq c) = s.idleFragment (k.piece ch seq c) := by
    unfold State.fragment
    rw [if_neg (show (k.piece ch seq c).kind ≠ Kind.resync.code from Kind.code_ne_resync hk)]
    have : (k.piece ch seq c).ch = ch := rfl
    rw [this, hidle]
  unfold State.receive
  rw [if_pos hlines, fragmentsOf_eq]
  unfold cutPayload
  split
  · rw [List.map_cons, List.map_nil, List.foldl_cons, List.foldl_nil, first _ rfl]
    unfold State.idleFragment
    simp only [Kind.piece]
    rw [if_neg hne, if_pos hseq]
    simp
  · next hlen =>
    unfold Config.fragmentBytes at hlen
    rw [List.map_cons, List.foldl_cons, first _ rfl]
    have hl : (p.take 1024).length = 1024 := by rw [List.length_take]; omega
    have hstart : s.idleFragment (k.piece ch seq (0, false, p.take Config.fragmentBytes))
        = s.joining ch seq k.code [p.take 1024] := by
      unfold State.idleFragment
      simp only [Kind.piece, Config.fragmentBytes, Fragment.badSize, hl]
      rw [if_neg hne, if_pos hseq]
      simp [State.joining]
    rw [hstart]
    have h := s.fold_joining ch seq hk 7 [p.take 1024] (p.drop Config.fragmentBytes) rfl (by omega)
      (by unfold Config.fragmentBytes; rw [List.length_drop]; omega)
    refine Eq.trans h ?_
    unfold Config.fragmentBytes
    simp

/-- A message that finds room and passes the generic checks is carried out by its owner (R149, R150, R151). -/
theorem State.complete_accepted (s : State) (k : Kind) (ch : Chan) (seq : SeqNo) (p : List Byte)
    (hroom : s.pkt.room = true) (hok : s.genericRefusal k.code ch p = none) :
    s.complete ch seq k.code p =
      let u := ((s.dropAssembly ch).reserve ch).advance ch seq
      (u.dispatch k ch p).1.carryOut ch seq k.code (u.dispatch k ch p).2 := by
  unfold State.complete
  have hg : ((s.dropAssembly ch).reserve ch).genericRefusal k.code ch p = none := hok
  simp only [State.dropAssembly_pkt, hroom, if_true]
  unfold State.judge
  rw [hg]
  simp

/-- A message that finds no room is dropped unexecuted (R149). -/
theorem State.complete_dropped (s : State) (kind : Byte) (ch : Chan) (seq : SeqNo) (p : List Byte)
    (hroom : s.pkt.room = false) :
    s.complete ch seq kind p = (s.dropAssembly ch).raise .responseDropped := by
  unfold State.complete
  simp [hroom]

end Sys2Proof.Machine
end

