-- ==== Sys2Proof/Laws/Frames.lean ====
section
/-! SUPPORT. Laws/Frames.lean: which blocks the conditional operations leave alone: offers, notices, refusals, the
owners' answers. -/

namespace Sys2Proof.Machine

/-! `State.offer` -/
@[simp] theorem State.offer_timing (s : State) (packet : List Byte) :
    (s.offer packet).timing = s.timing := by
  unfold State.offer; split <;> rfl
@[simp] theorem State.offer_link (s : State) (packet : List Byte) :
    (s.offer packet).link = s.link := by
  unfold State.offer; split <;> rfl
@[simp] theorem State.offer_comp (s : State) (packet : List Byte) :
    (s.offer packet).comp = s.comp := by
  unfold State.offer; split <;> rfl
@[simp] theorem State.offer_cset (s : State) (packet : List Byte) :
    (s.offer packet).cset = s.cset := by
  unfold State.offer; split <;> rfl
@[simp] theorem State.offer_store (s : State) (packet : List Byte) :
    (s.offer packet).store = s.store := by
  unfold State.offer; split <;> rfl
@[simp] theorem State.offer_chn (s : State) (packet : List Byte) :
    (s.offer packet).chn = s.chn := by
  unfold State.offer; split <;> rfl
@[simp] theorem State.offer_status (s : State) (packet : List Byte) :
    (s.offer packet).status = s.status := by
  unfold State.offer; split <;> rfl
@[simp] theorem State.offer_headOpen (s : State) (packet : List Byte) :
    (s.offer packet).headOpen = s.headOpen := by
  unfold State.offer; split <;> rfl
@[simp] theorem State.offer_pending (s : State) (packet : List Byte) :
    (s.offer packet).pending = s.pending := by
  unfold State.offer; split <;> rfl

/-! `State.offerNotice` -/
@[simp] theorem State.offerNotice_timing (s : State) (k : NoticeKind) (data : List Byte) :
    (s.offerNotice k data).timing = s.timing := by
  unfold State.offerNotice; split <;> (try split) <;> rfl
@[simp] theorem State.offerNotice_link (s : State) (k : NoticeKind) (data : List Byte) :
    (s.offerNotice k data).link = s.link := by
  unfold State.offerNotice; split <;> (try split) <;> rfl
@[simp] theorem State.offerNotice_comp (s : State) (k : NoticeKind) (data : List Byte) :
    (s.offerNotice k data).comp = s.comp := by
  unfold State.offerNotice; split <;> (try split) <;> rfl
@[simp] theorem State.offerNotice_cset (s : State) (k : NoticeKind) (data : List Byte) :
    (s.offerNotice k data).cset = s.cset := by
  unfold State.offerNotice; split <;> (try split) <;> rfl
@[simp] theorem State.offerNotice_store (s : State) (k : NoticeKind) (data : List Byte) :
    (s.offerNotice k data).store = s.store := by
  unfold State.offerNotice; split <;> (try split) <;> rfl
@[simp] theorem State.offerNotice_chn (s : State) (k : NoticeKind) (data : List Byte) :
    (s.offerNotice k data).chn = s.chn := by
  unfold State.offerNotice; split <;> (try split) <;> rfl
@[simp] theorem State.offerNotice_headOpen (s : State) (k : NoticeKind) (data : List Byte) :
    (s.offerNotice k data).headOpen = s.headOpen := by
  unfold State.offerNotice; split <;> (try split) <;> rfl
@[simp] theorem State.offerNotice_pending (s : State) (k : NoticeKind) (data : List Byte) :
    (s.offerNotice k data).pending = s.pending := by
  unfold State.offerNotice; split <;> (try split) <;> rfl

/-! `State.refuseFragment` -/
@[simp] theorem State.refuseFragment_timing (s : State) (f : Fragment) (code : Code) (p : List Byte) :
    (s.refuseFragment f code p).timing = s.timing := by
  unfold State.refuseFragment; simp
@[simp] theorem State.refuseFragment_link (s : State) (f : Fragment) (code : Code) (p : List Byte) :
    (s.refuseFragment f code p).link = s.link := by
  unfold State.refuseFragment; simp
@[simp] theorem State.refuseFragment_comp (s : State) (f : Fragment) (code : Code) (p : List Byte) :
    (s.refuseFragment f code p).comp = s.comp := by
  unfold State.refuseFragment; simp
@[simp] theorem State.refuseFragment_cset (s : State) (f : Fragment) (code : Code) (p : List Byte) :
    (s.refuseFragment f code p).cset = s.cset := by
  unfold State.refuseFragment; simp
@[simp] theorem State.refuseFragment_store (s : State) (f : Fragment) (code : Code) (p : List Byte) :
    (s.refuseFragment f code p).store = s.store := by
  unfold State.refuseFragment; simp
@[simp] theorem State.refuseFragment_chn (s : State) (f : Fragment) (code : Code) (p : List Byte) :
    (s.refuseFragment f code p).chn = s.chn := by
  unfold State.refuseFragment; simp
@[simp] theorem State.refuseFragment_status (s : State) (f : Fragment) (code : Code) (p : List Byte) :
    (s.refuseFragment f code p).status = s.status := by
  unfold State.refuseFragment; simp
@[simp] theorem State.refuseFragment_headOpen (s : State) (f : Fragment) (code : Code) (p : List Byte) :
    (s.refuseFragment f code p).headOpen = s.headOpen := by
  unfold State.refuseFragment; simp
@[simp] theorem State.refuseFragment_pending (s : State) (f : Fragment) (code : Code) (p : List Byte) :
    (s.refuseFragment f code p).pending = s.pending := by
  unfold State.refuseFragment; simp

/-! `State.duplicate` -/
@[simp] theorem State.duplicate_timing (s : State) (f : Fragment) :
    (s.duplicate f).timing = s.timing := by
  unfold State.duplicate; split <;> simp
@[simp] theorem State.duplicate_link (s : State) (f : Fragment) :
    (s.duplicate f).link = s.link := by
  unfold State.duplicate; split <;> simp
@[simp] theorem State.duplicate_comp (s : State) (f : Fragment) :
    (s.duplicate f).comp = s.comp := by
  unfold State.duplicate; split <;> simp
@[simp] theorem State.duplicate_cset (s : State) (f : Fragment) :
    (s.duplicate f).cset = s.cset := by
  unfold State.duplicate; split <;> simp
@[simp] theorem State.duplicate_store (s : State) (f : Fragment) :
    (s.duplicate f).store = s.store := by
  unfold State.duplicate; split <;> simp
@[simp] theorem State.duplicate_chn (s : State) (f : Fragment) :
    (s.duplicate f).chn = s.chn := by
  unfold State.duplicate; split <;> simp
@[simp] theorem State.duplicate_status (s : State) (f : Fragment) :
    (s.duplicate f).status = s.status := by
  unfold State.duplicate; split <;> simp
@[simp] theorem State.duplicate_headOpen (s : State) (f : Fragment) :
    (s.duplicate f).headOpen = s.headOpen := by
  unfold State.duplicate; split <;> simp
@[simp] theorem State.duplicate_pending (s : State) (f : Fragment) :
    (s.duplicate f).pending = s.pending := by
  unfold State.duplicate; split <;> simp

/-! `State.refuseSize` -/
@[simp] theorem State.refuseSize_timing (s : State) (f : Fragment) :
    (s.refuseSize f).timing = s.timing := by
  unfold State.refuseSize; simp
@[simp] theorem State.refuseSize_link (s : State) (f : Fragment) :
    (s.refuseSize f).link = s.link := by
  unfold State.refuseSize; simp
@[simp] theorem State.refuseSize_comp (s : State) (f : Fragment) :
    (s.refuseSize f).comp = s.comp := by
  unfold State.refuseSize; simp
@[simp] theorem State.refuseSize_cset (s : State) (f : Fragment) :
    (s.refuseSize f).cset = s.cset := by
  unfold State.refuseSize; simp
@[simp] theorem State.refuseSize_store (s : State) (f : Fragment) :
    (s.refuseSize f).store = s.store := by
  unfold State.refuseSize; simp
@[simp] theorem State.refuseSize_status (s : State) (f : Fragment) :
    (s.refuseSize f).status = s.status := by
  unfold State.refuseSize; simp
@[simp] theorem State.refuseSize_headOpen (s : State) (f : Fragment) :
    (s.refuseSize f).headOpen = s.headOpen := by
  unfold State.refuseSize; simp
@[simp] theorem State.refuseSize_pending (s : State) (f : Fragment) :
    (s.refuseSize f).pending = s.pending := by
  unfold State.refuseSize; simp

/-! `State.outOfSequence` -/
@[simp] theorem State.outOfSequence_timing (s : State) (f : Fragment) :
    (s.outOfSequence f).timing = s.timing := by
  unfold State.outOfSequence; simp only []; split <;> (try split) <;> simp
@[simp] theorem State.outOfSequence_link (s : State) (f : Fragment) :
    (s.outOfSequence f).link = s.link := by
  unfold State.outOfSequence; simp only []; split <;> (try split) <;> simp
@[simp] theorem State.outOfSequence_comp (s : State) (f : Fragment) :
    (s.outOfSequence f).comp = s.comp := by
  unfold State.outOfSequence; simp only []; split <;> (try split) <;> simp
@[simp] theorem State.outOfSequence_cset (s : State) (f : Fragment) :
    (s.outOfSequence f).cset = s.cset := by
  unfold State.outOfSequence; simp only []; split <;> (try split) <;> simp
@[simp] theorem State.outOfSequence_store (s : State) (f : Fragment) :
    (s.outOfSequence f).store = s.store := by
  unfold State.outOfSequence; simp only []; split <;> (try split) <;> simp
@[simp] theorem State.outOfSequence_status (s : State) (f : Fragment) :
    (s.outOfSequence f).status = s.status := by
  unfold State.outOfSequence; simp only []; split <;> (try split) <;> simp
@[simp] theorem State.outOfSequence_headOpen (s : State) (f : Fragment) :
    (s.outOfSequence f).headOpen = s.headOpen := by
  unfold State.outOfSequence; simp only []; split <;> (try split) <;> simp
@[simp] theorem State.outOfSequence_pending (s : State) (f : Fragment) :
    (s.outOfSequence f).pending = s.pending := by
  unfold State.outOfSequence; simp only []; split <;> (try split) <;> simp

/-! `State.executingFragment` -/
@[simp] theorem State.executingFragment_timing (s : State) (f : Fragment) :
    (s.executingFragment f).timing = s.timing := by
  unfold State.executingFragment; simp only []; split <;> (try split) <;> simp
@[simp] theorem State.executingFragment_link (s : State) (f : Fragment) :
    (s.executingFragment f).link = s.link := by
  unfold State.executingFragment; simp only []; split <;> (try split) <;> simp
@[simp] theorem State.executingFragment_comp (s : State) (f : Fragment) :
    (s.executingFragment f).comp = s.comp := by
  unfold State.executingFragment; simp only []; split <;> (try split) <;> simp
@[simp] theorem State.executingFragment_cset (s : State) (f : Fragment) :
    (s.executingFragment f).cset = s.cset := by
  unfold State.executingFragment; simp only []; split <;> (try split) <;> simp
@[simp] theorem State.executingFragment_store (s : State) (f : Fragment) :
    (s.executingFragment f).store = s.store := by
  unfold State.executingFragment; simp only []; split <;> (try split) <;> simp
@[simp] theorem State.executingFragment_chn (s : State) (f : Fragment) :
    (s.executingFragment f).chn = s.chn := by
  unfold State.executingFragment; simp only []; split <;> (try split) <;> simp
@[simp] theorem State.executingFragment_status (s : State) (f : Fragment) :
    (s.executingFragment f).status = s.status := by
  unfold State.executingFragment; simp only []; split <;> (try split) <;> simp
@[simp] theorem State.executingFragment_headOpen (s : State) (f : Fragment) :
    (s.executingFragment f).headOpen = s.headOpen := by
  unfold State.executingFragment; simp only []; split <;> (try split) <;> simp
@[simp] theorem State.executingFragment_pending (s : State) (f : Fragment) :
    (s.executingFragment f).pending = s.pending := by
  unfold State.executingFragment; simp only []; split <;> (try split) <;> simp

/-! `State.haltedFragment` -/
@[simp] theorem State.haltedFragment_timing (s : State) (f : Fragment) :
    (s.haltedFragment f).timing = s.timing := by
  unfold State.haltedFragment; split <;> simp
@[simp] theorem State.haltedFragment_link (s : State) (f : Fragment) :
    (s.haltedFragment f).link = s.link := by
  unfold State.haltedFragment; split <;> simp
@[simp] theorem State.haltedFragment_comp (s : State) (f : Fragment) :
    (s.haltedFragment f).comp = s.comp := by
  unfold State.haltedFragment; split <;> simp
@[simp] theorem State.haltedFragment_cset (s : State) (f : Fragment) :
    (s.haltedFragment f).cset = s.cset := by
  unfold State.haltedFragment; split <;> simp
@[simp] theorem State.haltedFragment_store (s : State) (f : Fragment) :
    (s.haltedFragment f).store = s.store := by
  unfold State.haltedFragment; split <;> simp
@[simp] theorem State.haltedFragment_chn (s : State) (f : Fragment) :
    (s.haltedFragment f).chn = s.chn := by
  unfold State.haltedFragment; split <;> simp
@[simp] theorem State.haltedFragment_status (s : State) (f : Fragment) :
    (s.haltedFragment f).status = s.status := by
  unfold State.haltedFragment; split <;> simp
@[simp] theorem State.haltedFragment_headOpen (s : State) (f : Fragment) :
    (s.haltedFragment f).headOpen = s.headOpen := by
  unfold State.haltedFragment; split <;> simp
@[simp] theorem State.haltedFragment_pending (s : State) (f : Fragment) :
    (s.haltedFragment f).pending = s.pending := by
  unfold State.haltedFragment; split <;> simp

/-! `State.judgeResync` -/
@[simp] theorem State.judgeResync_timing (s : State) (f : Fragment) :
    (s.judgeResync f).timing = s.timing := by
  unfold State.judgeResync; split <;> simp
@[simp] theorem State.judgeResync_link (s : State) (f : Fragment) :
    (s.judgeResync f).link = s.link := by
  unfold State.judgeResync; split <;> simp
@[simp] theorem State.judgeResync_comp (s : State) (f : Fragment) :
    (s.judgeResync f).comp = s.comp := by
  unfold State.judgeResync; split <;> simp
@[simp] theorem State.judgeResync_cset (s : State) (f : Fragment) :
    (s.judgeResync f).cset = s.cset := by
  unfold State.judgeResync; split <;> simp
@[simp] theorem State.judgeResync_store (s : State) (f : Fragment) :
    (s.judgeResync f).store = s.store := by
  unfold State.judgeResync; split <;> simp
@[simp] theorem State.judgeResync_status (s : State) (f : Fragment) :
    (s.judgeResync f).status = s.status := by
  unfold State.judgeResync; split <;> simp
@[simp] theorem State.judgeResync_headOpen (s : State) (f : Fragment) :
    (s.judgeResync f).headOpen = s.headOpen := by
  unfold State.judgeResync; split <;> simp
@[simp] theorem State.judgeResync_pending (s : State) (f : Fragment) :
    (s.judgeResync f).pending = s.pending := by
  unfold State.judgeResync; split <;> simp

/-! `State.resyncFragment` -/
@[simp] theorem State.resyncFragment_timing (s : State) (f : Fragment) :
    (s.resyncFragment f).timing = s.timing := by
  unfold State.resyncFragment; split <;> (try split) <;> (try split) <;> simp
@[simp] theorem State.resyncFragment_link (s : State) (f : Fragment) :
    (s.resyncFragment f).link = s.link := by
  unfold State.resyncFragment; split <;> (try split) <;> (try split) <;> simp
@[simp] theorem State.resyncFragment_comp (s : State) (f : Fragment) :
    (s.resyncFragment f).comp = s.comp := by
  unfold State.resyncFragment; split <;> (try split) <;> (try split) <;> simp
@[simp] theorem State.resyncFragment_cset (s : State) (f : Fragment) :
    (s.resyncFragment f).cset = s.cset := by
  unfold State.resyncFragment; split <;> (try split) <;> (try split) <;> simp
@[simp] theorem State.resyncFragment_store (s : State) (f : Fragment) :
    (s.resyncFragment f).store = s.store := by
  unfold State.resyncFragment; split <;> (try split) <;> (try split) <;> simp
@[simp] theorem State.resyncFragment_headOpen (s : State) (f : Fragment) :
    (s.resyncFragment f).headOpen = s.headOpen := by
  unfold State.resyncFragment; split <;> (try split) <;> (try split) <;> simp
@[simp] theorem State.resyncFragment_pending (s : State) (f : Fragment) :
    (s.resyncFragment f).pending = s.pending := by
  unfold State.resyncFragment; split <;> (try split) <;> (try split) <;> simp

/-! `State.timeOut` -/
@[simp] theorem State.timeOut_timing (s : State) (ch : Chan) :
    (s.timeOut ch).timing = s.timing := by
  unfold State.timeOut; split <;> (try split) <;> simp
@[simp] theorem State.timeOut_link (s : State) (ch : Chan) :
    (s.timeOut ch).link = s.link := by
  unfold State.timeOut; split <;> (try split) <;> simp
@[simp] theorem State.timeOut_comp (s : State) (ch : Chan) :
    (s.timeOut ch).comp = s.comp := by
  unfold State.timeOut; split <;> (try split) <;> simp
@[simp] theorem State.timeOut_cset (s : State) (ch : Chan) :
    (s.timeOut ch).cset = s.cset := by
  unfold State.timeOut; split <;> (try split) <;> simp
@[simp] theorem State.timeOut_store (s : State) (ch : Chan) :
    (s.timeOut ch).store = s.store := by
  unfold State.timeOut; split <;> (try split) <;> simp
@[simp] theorem State.timeOut_headOpen (s : State) (ch : Chan) :
    (s.timeOut ch).headOpen = s.headOpen := by
  unfold State.timeOut; split <;> (try split) <;> simp
@[simp] theorem State.timeOut_pending (s : State) (ch : Chan) :
    (s.timeOut ch).pending = s.pending := by
  unfold State.timeOut; split <;> (try split) <;> simp

/-! `State.timeOutAll` -/
@[simp] theorem State.timeOutAll_timing (s : State)  :
    (s.timeOutAll).timing = s.timing := by
  unfold State.timeOutAll; simp
@[simp] theorem State.timeOutAll_link (s : State)  :
    (s.timeOutAll).link = s.link := by
  unfold State.timeOutAll; simp
@[simp] theorem State.timeOutAll_comp (s : State)  :
    (s.timeOutAll).comp = s.comp := by
  unfold State.timeOutAll; simp
@[simp] theorem State.timeOutAll_cset (s : State)  :
    (s.timeOutAll).cset = s.cset := by
  unfold State.timeOutAll; simp
@[simp] theorem State.timeOutAll_store (s : State)  :
    (s.timeOutAll).store = s.store := by
  unfold State.timeOutAll; simp
@[simp] theorem State.timeOutAll_headOpen (s : State)  :
    (s.timeOutAll).headOpen = s.headOpen := by
  unfold State.timeOutAll; simp
@[simp] theorem State.timeOutAll_pending (s : State)  :
    (s.timeOutAll).pending = s.pending := by
  unfold State.timeOutAll; simp

/-! `State.carryOut` -/
@[simp] theorem State.carryOut_timing (s : State) (ch : Chan) (seq : SeqNo) (kind : Byte) (r : Reply) :
    (s.carryOut ch seq kind r).timing = s.timing := by
  unfold State.carryOut; split <;> simp
@[simp] theorem State.carryOut_link (s : State) (ch : Chan) (seq : SeqNo) (kind : Byte) (r : Reply) :
    (s.carryOut ch seq kind r).link = s.link := by
  unfold State.carryOut; split <;> simp
@[simp] theorem State.carryOut_comp (s : State) (ch : Chan) (seq : SeqNo) (kind : Byte) (r : Reply) :
    (s.carryOut ch seq kind r).comp = s.comp := by
  unfold State.carryOut; split <;> simp
@[simp] theorem State.carryOut_cset (s : State) (ch : Chan) (seq : SeqNo) (kind : Byte) (r : Reply) :
    (s.carryOut ch seq kind r).cset = s.cset := by
  unfold State.carryOut; split <;> simp
@[simp] theorem State.carryOut_store (s : State) (ch : Chan) (seq : SeqNo) (kind : Byte) (r : Reply) :
    (s.carryOut ch seq kind r).store = s.store := by
  unfold State.carryOut; split <;> simp
@[simp] theorem State.carryOut_status (s : State) (ch : Chan) (seq : SeqNo) (kind : Byte) (r : Reply) :
    (s.carryOut ch seq kind r).status = s.status := by
  unfold State.carryOut; split <;> simp
@[simp] theorem State.carryOut_headOpen (s : State) (ch : Chan) (seq : SeqNo) (kind : Byte) (r : Reply) :
    (s.carryOut ch seq kind r).headOpen = s.headOpen := by
  unfold State.carryOut; split <;> simp
@[simp] theorem State.carryOut_pending (s : State) (ch : Chan) (seq : SeqNo) (kind : Byte) (r : Reply) :
    (s.carryOut ch seq kind r).pending = s.pending := by
  unfold State.carryOut; split <;> simp

/-! `State.reportLock` -/
@[simp] theorem State.reportLock_timing (s : State) (a b : LockState) (c : LockCause) :
    (s.reportLock a b c).timing = s.timing := by
  unfold State.reportLock; simp
@[simp] theorem State.reportLock_link (s : State) (a b : LockState) (c : LockCause) :
    (s.reportLock a b c).link = s.link := by
  unfold State.reportLock; simp
@[simp] theorem State.reportLock_comp (s : State) (a b : LockState) (c : LockCause) :
    (s.reportLock a b c).comp = s.comp := by
  unfold State.reportLock; simp
@[simp] theorem State.reportLock_cset (s : State) (a b : LockState) (c : LockCause) :
    (s.reportLock a b c).cset = s.cset := by
  unfold State.reportLock; simp
@[simp] theorem State.reportLock_store (s : State) (a b : LockState) (c : LockCause) :
    (s.reportLock a b c).store = s.store := by
  unfold State.reportLock; simp
@[simp] theorem State.reportLock_chn (s : State) (a b : LockState) (c : LockCause) :
    (s.reportLock a b c).chn = s.chn := by
  unfold State.reportLock; simp
@[simp] theorem State.reportLock_headOpen (s : State) (a b : LockState) (c : LockCause) :
    (s.reportLock a b c).headOpen = s.headOpen := by
  unfold State.reportLock; simp
@[simp] theorem State.reportLock_pending (s : State) (a b : LockState) (c : LockCause) :
    (s.reportLock a b c).pending = s.pending := by
  unfold State.reportLock; simp

/-! `State.reportApplied` -/
@[simp] theorem State.reportApplied_timing (s : State) (f : FrameNo) (set : Scheduled) :
    (s.reportApplied f set).timing = s.timing := by
  unfold State.reportApplied; simp only []; split <;> (try split) <;> simp
@[simp] theorem State.reportApplied_link (s : State) (f : FrameNo) (set : Scheduled) :
    (s.reportApplied f set).link = s.link := by
  unfold State.reportApplied; simp only []; split <;> (try split) <;> simp
@[simp] theorem State.reportApplied_comp (s : State) (f : FrameNo) (set : Scheduled) :
    (s.reportApplied f set).comp = s.comp := by
  unfold State.reportApplied; simp only []; split <;> (try split) <;> simp
@[simp] theorem State.reportApplied_cset (s : State) (f : FrameNo) (set : Scheduled) :
    (s.reportApplied f set).cset = s.cset := by
  unfold State.reportApplied; simp only []; split <;> (try split) <;> simp
@[simp] theorem State.reportApplied_store (s : State) (f : FrameNo) (set : Scheduled) :
    (s.reportApplied f set).store = s.store := by
  unfold State.reportApplied; simp only []; split <;> (try split) <;> simp
@[simp] theorem State.reportApplied_chn (s : State) (f : FrameNo) (set : Scheduled) :
    (s.reportApplied f set).chn = s.chn := by
  unfold State.reportApplied; simp only []; split <;> (try split) <;> simp
@[simp] theorem State.reportApplied_headOpen (s : State) (f : FrameNo) (set : Scheduled) :
    (s.reportApplied f set).headOpen = s.headOpen := by
  unfold State.reportApplied; simp only []; split <;> (try split) <;> simp
@[simp] theorem State.reportApplied_pending (s : State) (f : FrameNo) (set : Scheduled) :
    (s.reportApplied f set).pending = s.pending := by
  unfold State.reportApplied; simp only []; split <;> (try split) <;> simp

/-! `State.flagPacket` -/
@[simp] theorem State.flagPacket_timing (s : State) (bytes : List Byte) :
    (s.flagPacket bytes).timing = s.timing := by
  unfold State.flagPacket; split <;> simp
@[simp] theorem State.flagPacket_link (s : State) (bytes : List Byte) :
    (s.flagPacket bytes).link = s.link := by
  unfold State.flagPacket; split <;> simp
@[simp] theorem State.flagPacket_comp (s : State) (bytes : List Byte) :
    (s.flagPacket bytes).comp = s.comp := by
  unfold State.flagPacket; split <;> simp
@[simp] theorem State.flagPacket_cset (s : State) (bytes : List Byte) :
    (s.flagPacket bytes).cset = s.cset := by
  unfold State.flagPacket; split <;> simp
@[simp] theorem State.flagPacket_store (s : State) (bytes : List Byte) :
    (s.flagPacket bytes).store = s.store := by
  unfold State.flagPacket; split <;> simp
@[simp] theorem State.flagPacket_pkt (s : State) (bytes : List Byte) :
    (s.flagPacket bytes).pkt = s.pkt := by
  unfold State.flagPacket; split <;> simp
@[simp] theorem State.flagPacket_chn (s : State) (bytes : List Byte) :
    (s.flagPacket bytes).chn = s.chn := by
  unfold State.flagPacket; split <;> simp
@[simp] theorem State.flagPacket_headOpen (s : State) (bytes : List Byte) :
    (s.flagPacket bytes).headOpen = s.headOpen := by
  unfold State.flagPacket; split <;> simp
@[simp] theorem State.flagPacket_pending (s : State) (bytes : List Byte) :
    (s.flagPacket bytes).pending = s.pending := by
  unfold State.flagPacket; split <;> simp

/-! `State.stage` -/
@[simp] theorem State.stage_timing (s : State) (e : Edit) :
    (s.stage e).1.timing = s.timing := by
  unfold State.stage; split <;> rfl
@[simp] theorem State.stage_link (s : State) (e : Edit) :
    (s.stage e).1.link = s.link := by
  unfold State.stage; split <;> rfl
@[simp] theorem State.stage_comp (s : State) (e : Edit) :
    (s.stage e).1.comp = s.comp := by
  unfold State.stage; split <;> rfl
@[simp] theorem State.stage_store (s : State) (e : Edit) :
    (s.stage e).1.store = s.store := by
  unfold State.stage; split <;> rfl
@[simp] theorem State.stage_pkt (s : State) (e : Edit) :
    (s.stage e).1.pkt = s.pkt := by
  unfold State.stage; split <;> rfl
@[simp] theorem State.stage_chn (s : State) (e : Edit) :
    (s.stage e).1.chn = s.chn := by
  unfold State.stage; split <;> rfl
@[simp] theorem State.stage_status (s : State) (e : Edit) :
    (s.stage e).1.status = s.status := by
  unfold State.stage; split <;> rfl
@[simp] theorem State.stage_headOpen (s : State) (e : Edit) :
    (s.stage e).1.headOpen = s.headOpen := by
  unfold State.stage; split <;> rfl
@[simp] theorem State.stage_pending (s : State) (e : Edit) :
    (s.stage e).1.pending = s.pending := by
  unfold State.stage; split <;> rfl

/-! `State.takeWinPlace` -/
@[simp] theorem State.takeWinPlace_timing (s : State) (p : List Byte) :
    (s.takeWinPlace p).1.timing = s.timing := by
  unfold State.takeWinPlace; split <;> simp
@[simp] theorem State.takeWinPlace_link (s : State) (p : List Byte) :
    (s.takeWinPlace p).1.link = s.link := by
  unfold State.takeWinPlace; split <;> simp
@[simp] theorem State.takeWinPlace_comp (s : State) (p : List Byte) :
    (s.takeWinPlace p).1.comp = s.comp := by
  unfold State.takeWinPlace; split <;> simp
@[simp] theorem State.takeWinPlace_store (s : State) (p : List Byte) :
    (s.takeWinPlace p).1.store = s.store := by
  unfold State.takeWinPlace; split <;> simp
@[simp] theorem State.takeWinPlace_pkt (s : State) (p : List Byte) :
    (s.takeWinPlace p).1.pkt = s.pkt := by
  unfold State.takeWinPlace; split <;> simp
@[simp] theorem State.takeWinPlace_chn (s : State) (p : List Byte) :
    (s.takeWinPlace p).1.chn = s.chn := by
  unfold State.takeWinPlace; split <;> simp
@[simp] theorem State.takeWinPlace_status (s : State) (p : List Byte) :
    (s.takeWinPlace p).1.status = s.status := by
  unfold State.takeWinPlace; split <;> simp
@[simp] theorem State.takeWinPlace_headOpen (s : State) (p : List Byte) :
    (s.takeWinPlace p).1.headOpen = s.headOpen := by
  unfold State.takeWinPlace; split <;> simp
@[simp] theorem State.takeWinPlace_pending (s : State) (p : List Byte) :
    (s.takeWinPlace p).1.pending = s.pending := by
  unfold State.takeWinPlace; split <;> simp

/-! `State.takeWinShow` -/
@[simp] theorem State.takeWinShow_timing (s : State) (p : List Byte) :
    (s.takeWinShow p).1.timing = s.timing := by
  unfold State.takeWinShow; split <;> simp
@[simp] theorem State.takeWinShow_link (s : State) (p : List Byte) :
    (s.takeWinShow p).1.link = s.link := by
  unfold State.takeWinShow; split <;> simp
@[simp] theorem State.takeWinShow_comp (s : State) (p : List Byte) :
    (s.takeWinShow p).1.comp = s.comp := by
  unfold State.takeWinShow; split <;> simp
@[simp] theorem State.takeWinShow_store (s : State) (p : List Byte) :
    (s.takeWinShow p).1.store = s.store := by
  unfold State.takeWinShow; split <;> simp
@[simp] theorem State.takeWinShow_pkt (s : State) (p : List Byte) :
    (s.takeWinShow p).1.pkt = s.pkt := by
  unfold State.takeWinShow; split <;> simp
@[simp] theorem State.takeWinShow_chn (s : State) (p : List Byte) :
    (s.takeWinShow p).1.chn = s.chn := by
  unfold State.takeWinShow; split <;> simp
@[simp] theorem State.takeWinShow_status (s : State) (p : List Byte) :
    (s.takeWinShow p).1.status = s.status := by
  unfold State.takeWinShow; split <;> simp
@[simp] theorem State.takeWinShow_headOpen (s : State) (p : List Byte) :
    (s.takeWinShow p).1.headOpen = s.headOpen := by
  unfold State.takeWinShow; split <;> simp
@[simp] theorem State.takeWinShow_pending (s : State) (p : List Byte) :
    (s.takeWinShow p).1.pending = s.pending := by
  unfold State.takeWinShow; split <;> simp

/-! `State.takePalStage` -/
@[simp] theorem State.takePalStage_timing (s : State) (p : List Byte) :
    (s.takePalStage p).1.timing = s.timing := by
  unfold State.takePalStage; split <;> simp
@[simp] theorem State.takePalStage_link (s : State) (p : List Byte) :
    (s.takePalStage p).1.link = s.link := by
  unfold State.takePalStage; split <;> simp
@[simp] theorem State.takePalStage_comp (s : State) (p : List Byte) :
    (s.takePalStage p).1.comp = s.comp := by
  unfold State.takePalStage; split <;> simp
@[simp] theorem State.takePalStage_store (s : State) (p : List Byte) :
    (s.takePalStage p).1.store = s.store := by
  unfold State.takePalStage; split <;> simp
@[simp] theorem State.takePalStage_pkt (s : State) (p : List Byte) :
    (s.takePalStage p).1.pkt = s.pkt := by
  unfold State.takePalStage; split <;> simp
@[simp] theorem State.takePalStage_chn (s : State) (p : List Byte) :
    (s.takePalStage p).1.chn = s.chn := by
  unfold State.takePalStage; split <;> simp
@[simp] theorem State.takePalStage_status (s : State) (p : List Byte) :
    (s.takePalStage p).1.status = s.status := by
  unfold State.takePalStage; split <;> simp
@[simp] theorem State.takePalStage_headOpen (s : State) (p : List Byte) :
    (s.takePalStage p).1.headOpen = s.headOpen := by
  unfold State.takePalStage; split <;> simp
@[simp] theorem State.takePalStage_pending (s : State) (p : List Byte) :
    (s.takePalStage p).1.pending = s.pending := by
  unfold State.takePalStage; split <;> simp

/-! `State.takeFillStage` -/
@[simp] theorem State.takeFillStage_timing (s : State) (p : List Byte) :
    (s.takeFillStage p).1.timing = s.timing := by
  unfold State.takeFillStage; split <;> simp
@[simp] theorem State.takeFillStage_link (s : State) (p : List Byte) :
    (s.takeFillStage p).1.link = s.link := by
  unfold State.takeFillStage; split <;> simp
@[simp] theorem State.takeFillStage_comp (s : State) (p : List Byte) :
    (s.takeFillStage p).1.comp = s.comp := by
  unfold State.takeFillStage; split <;> simp
@[simp] theorem State.takeFillStage_store (s : State) (p : List Byte) :
    (s.takeFillStage p).1.store = s.store := by
  unfold State.takeFillStage; split <;> simp
@[simp] theorem State.takeFillStage_pkt (s : State) (p : List Byte) :
    (s.takeFillStage p).1.pkt = s.pkt := by
  unfold State.takeFillStage; split <;> simp
@[simp] theorem State.takeFillStage_chn (s : State) (p : List Byte) :
    (s.takeFillStage p).1.chn = s.chn := by
  unfold State.takeFillStage; split <;> simp
@[simp] theorem State.takeFillStage_status (s : State) (p : List Byte) :
    (s.takeFillStage p).1.status = s.status := by
  unfold State.takeFillStage; split <;> simp
@[simp] theorem State.takeFillStage_headOpen (s : State) (p : List Byte) :
    (s.takeFillStage p).1.headOpen = s.headOpen := by
  unfold State.takeFillStage; split <;> simp
@[simp] theorem State.takeFillStage_pending (s : State) (p : List Byte) :
    (s.takeFillStage p).1.pending = s.pending := by
  unfold State.takeFillStage; split <;> simp

/-! `State.takeWinStage` -/
@[simp] theorem State.takeWinStage_timing (s : State) (p : List Byte) :
    (s.takeWinStage p).1.timing = s.timing := by
  unfold State.takeWinStage; split
  · rfl
  · simp only []; split
    · rfl
    · split
      · next h => exact (congrArg (fun x => x.1.timing) h).symm.trans (State.stage_timing s _)
      · simp
@[simp] theorem State.takeWinStage_link (s : State) (p : List Byte) :
    (s.takeWinStage p).1.link = s.link := by
  unfold State.takeWinStage; split
  · rfl
  · simp only []; split
    · rfl
    · split
      · next h => exact (congrArg (fun x => x.1.link) h).symm.trans (State.stage_link s _)
      · simp
@[simp] theorem State.takeWinStage_comp (s : State) (p : List Byte) :
    (s.takeWinStage p).1.comp = s.comp := by
  unfold State.takeWinStage; split
  · rfl
  · simp only []; split
    · rfl
    · split
      · next h => exact (congrArg (fun x => x.1.comp) h).symm.trans (State.stage_comp s _)
      · simp
@[simp] theorem State.takeWinStage_pkt (s : State) (p : List Byte) :
    (s.takeWinStage p).1.pkt = s.pkt := by
  unfold State.takeWinStage; split
  · rfl
  · simp only []; split
    · rfl
    · split
      · next h => exact (congrArg (fun x => x.1.pkt) h).symm.trans (State.stage_pkt s _)
      · simp
@[simp] theorem State.takeWinStage_chn (s : State) (p : List Byte) :
    (s.takeWinStage p).1.chn = s.chn := by
  unfold State.takeWinStage; split
  · rfl
  · simp only []; split
    · rfl
    · split
      · next h => exact (congrArg (fun x => x.1.chn) h).symm.trans (State.stage_chn s _)
      · simp
@[simp] theorem State.takeWinStage_status (s : State) (p : List Byte) :
    (s.takeWinStage p).1.status = s.status := by
  unfold State.takeWinStage; split
  · rfl
  · simp only []; split
    · rfl
    · split
      · next h => exact (congrArg (fun x => x.1.status) h).symm.trans (State.stage_status s _)
      · simp
@[simp] theorem State.takeWinStage_headOpen (s : State) (p : List Byte) :
    (s.takeWinStage p).1.headOpen = s.headOpen := by
  unfold State.takeWinStage; split
  · rfl
  · simp only []; split
    · rfl
    · split
      · next h => exact (congrArg (fun x => x.1.headOpen) h).symm.trans (State.stage_headOpen s _)
      · simp
@[simp] theorem State.takeWinStage_pending (s : State) (p : List Byte) :
    (s.takeWinStage p).1.pending = s.pending := by
  unfold State.takeWinStage; split
  · rfl
  · simp only []; split
    · rfl
    · split
      · next h => exact (congrArg (fun x => x.1.pending) h).symm.trans (State.stage_pending s _)
      · simp

/-! `State.takeSetCommit` -/
@[simp] theorem State.takeSetCommit_timing (s : State) (p : List Byte) :
    (s.takeSetCommit p).1.timing = s.timing := by
  unfold State.takeSetCommit; repeat' split
  all_goals rfl
@[simp] theorem State.takeSetCommit_link (s : State) (p : List Byte) :
    (s.takeSetCommit p).1.link = s.link := by
  unfold State.takeSetCommit; repeat' split
  all_goals rfl
@[simp] theorem State.takeSetCommit_comp (s : State) (p : List Byte) :
    (s.takeSetCommit p).1.comp = s.comp := by
  unfold State.takeSetCommit; repeat' split
  all_goals rfl
@[simp] theorem State.takeSetCommit_store (s : State) (p : List Byte) :
    (s.takeSetCommit p).1.store = s.store := by
  unfold State.takeSetCommit; repeat' split
  all_goals rfl
@[simp] theorem State.takeSetCommit_pkt (s : State) (p : List Byte) :
    (s.takeSetCommit p).1.pkt = s.pkt := by
  unfold State.takeSetCommit; repeat' split
  all_goals rfl
@[simp] theorem State.takeSetCommit_chn (s : State) (p : List Byte) :
    (s.takeSetCommit p).1.chn = s.chn := by
  unfold State.takeSetCommit; repeat' split
  all_goals rfl
@[simp] theorem State.takeSetCommit_status (s : State) (p : List Byte) :
    (s.takeSetCommit p).1.status = s.status := by
  unfold State.takeSetCommit; repeat' split
  all_goals rfl
@[simp] theorem State.takeSetCommit_headOpen (s : State) (p : List Byte) :
    (s.takeSetCommit p).1.headOpen = s.headOpen := by
  unfold State.takeSetCommit; repeat' split
  all_goals rfl
@[simp] theorem State.takeSetCommit_pending (s : State) (p : List Byte) :
    (s.takeSetCommit p).1.pending = s.pending := by
  unfold State.takeSetCommit; repeat' split
  all_goals rfl

/-! `State.takeSetDiscard` -/
@[simp] theorem State.takeSetDiscard_timing (s : State) (p : List Byte) :
    (s.takeSetDiscard p).1.timing = s.timing := by
  unfold State.takeSetDiscard; split <;> rfl
@[simp] theorem State.takeSetDiscard_link (s : State) (p : List Byte) :
    (s.takeSetDiscard p).1.link = s.link := by
  unfold State.takeSetDiscard; split <;> rfl
@[simp] theorem State.takeSetDiscard_comp (s : State) (p : List Byte) :
    (s.takeSetDiscard p).1.comp = s.comp := by
  unfold State.takeSetDiscard; split <;> rfl
@[simp] theorem State.takeSetDiscard_pkt (s : State) (p : List Byte) :
    (s.takeSetDiscard p).1.pkt = s.pkt := by
  unfold State.takeSetDiscard; split <;> rfl
@[simp] theorem State.takeSetDiscard_chn (s : State) (p : List Byte) :
    (s.takeSetDiscard p).1.chn = s.chn := by
  unfold State.takeSetDiscard; split <;> rfl
@[simp] theorem State.takeSetDiscard_status (s : State) (p : List Byte) :
    (s.takeSetDiscard p).1.status = s.status := by
  unfold State.takeSetDiscard; split <;> rfl
@[simp] theorem State.takeSetDiscard_headOpen (s : State) (p : List Byte) :
    (s.takeSetDiscard p).1.headOpen = s.headOpen := by
  unfold State.takeSetDiscard; split <;> rfl
@[simp] theorem State.takeSetDiscard_pending (s : State) (p : List Byte) :
    (s.takeSetDiscard p).1.pending = s.pending := by
  unfold State.takeSetDiscard; split <;> rfl

/-! `State.takeSetWithdraw` -/
@[simp] theorem State.takeSetWithdraw_timing (s : State) (p : List Byte) :
    (s.takeSetWithdraw p).1.timing = s.timing := by
  unfold State.takeSetWithdraw; split <;> rfl
@[simp] theorem State.takeSetWithdraw_link (s : State) (p : List Byte) :
    (s.takeSetWithdraw p).1.link = s.link := by
  unfold State.takeSetWithdraw; split <;> rfl
@[simp] theorem State.takeSetWithdraw_comp (s : State) (p : List Byte) :
    (s.takeSetWithdraw p).1.comp = s.comp := by
  unfold State.takeSetWithdraw; split <;> rfl
@[simp] theorem State.takeSetWithdraw_pkt (s : State) (p : List Byte) :
    (s.takeSetWithdraw p).1.pkt = s.pkt := by
  unfold State.takeSetWithdraw; split <;> rfl
@[simp] theorem State.takeSetWithdraw_chn (s : State) (p : List Byte) :
    (s.takeSetWithdraw p).1.chn = s.chn := by
  unfold State.takeSetWithdraw; split <;> rfl
@[simp] theorem State.takeSetWithdraw_status (s : State) (p : List Byte) :
    (s.takeSetWithdraw p).1.status = s.status := by
  unfold State.takeSetWithdraw; split <;> rfl
@[simp] theorem State.takeSetWithdraw_headOpen (s : State) (p : List Byte) :
    (s.takeSetWithdraw p).1.headOpen = s.headOpen := by
  unfold State.takeSetWithdraw; split <;> rfl
@[simp] theorem State.takeSetWithdraw_pending (s : State) (p : List Byte) :
    (s.takeSetWithdraw p).1.pending = s.pending := by
  unfold State.takeSetWithdraw; split <;> rfl

/-! `State.takeSegCreate` -/
@[simp] theorem State.takeSegCreate_timing (s : State) (p : List Byte) :
    (s.takeSegCreate p).1.timing = s.timing := by
  unfold State.takeSegCreate; simp only []; repeat' split
  all_goals rfl
@[simp] theorem State.takeSegCreate_link (s : State) (p : List Byte) :
    (s.takeSegCreate p).1.link = s.link := by
  unfold State.takeSegCreate; simp only []; repeat' split
  all_goals rfl
@[simp] theorem State.takeSegCreate_comp (s : State) (p : List Byte) :
    (s.takeSegCreate p).1.comp = s.comp := by
  unfold State.takeSegCreate; simp only []; repeat' split
  all_goals rfl
@[simp] theorem State.takeSegCreate_cset (s : State) (p : List Byte) :
    (s.takeSegCreate p).1.cset = s.cset := by
  unfold State.takeSegCreate; simp only []; repeat' split
  all_goals rfl
@[simp] theorem State.takeSegCreate_pkt (s : State) (p : List Byte) :
    (s.takeSegCreate p).1.pkt = s.pkt := by
  unfold State.takeSegCreate; simp only []; repeat' split
  all_goals rfl
@[simp] theorem State.takeSegCreate_chn (s : State) (p : List Byte) :
    (s.takeSegCreate p).1.chn = s.chn := by
  unfold State.takeSegCreate; simp only []; repeat' split
  all_goals rfl
@[simp] theorem State.takeSegCreate_status (s : State) (p : List Byte) :
    (s.takeSegCreate p).1.status = s.status := by
  unfold State.takeSegCreate; simp only []; repeat' split
  all_goals rfl
@[simp] theorem State.takeSegCreate_headOpen (s : State) (p : List Byte) :
    (s.takeSegCreate p).1.headOpen = s.headOpen := by
  unfold State.takeSegCreate; simp only []; repeat' split
  all_goals rfl
@[simp] theorem State.takeSegCreate_pending (s : State) (p : List Byte) :
    (s.takeSegCreate p).1.pending = s.pending := by
  unfold State.takeSegCreate; simp only []; repeat' split
  all_goals rfl

/-! `State.takeSegDelete` -/
@[simp] theorem State.takeSegDelete_timing (s : State) (p : List Byte) :
    (s.takeSegDelete p).1.timing = s.timing := by
  unfold State.takeSegDelete; repeat' split
  all_goals rfl
@[simp] theorem State.takeSegDelete_link (s : State) (p : List Byte) :
    (s.takeSegDelete p).1.link = s.link := by
  unfold State.takeSegDelete; repeat' split
  all_goals rfl
@[simp] theorem State.takeSegDelete_comp (s : State) (p : List Byte) :
    (s.takeSegDelete p).1.comp = s.comp := by
  unfold State.takeSegDelete; repeat' split
  all_goals rfl
@[simp] theorem State.takeSegDelete_cset (s : State) (p : List Byte) :
    (s.takeSegDelete p).1.cset = s.cset := by
  unfold State.takeSegDelete; repeat' split
  all_goals rfl
@[simp] theorem State.takeSegDelete_pkt (s : State) (p : List Byte) :
    (s.takeSegDelete p).1.pkt = s.pkt := by
  unfold State.takeSegDelete; repeat' split
  all_goals rfl
@[simp] theorem State.takeSegDelete_chn (s : State) (p : List Byte) :
    (s.takeSegDelete p).1.chn = s.chn := by
  unfold State.takeSegDelete; repeat' split
  all_goals rfl
@[simp] theorem State.takeSegDelete_status (s : State) (p : List Byte) :
    (s.takeSegDelete p).1.status = s.status := by
  unfold State.takeSegDelete; repeat' split
  all_goals rfl
@[simp] theorem State.takeSegDelete_headOpen (s : State) (p : List Byte) :
    (s.takeSegDelete p).1.headOpen = s.headOpen := by
  unfold State.takeSegDelete; repeat' split
  all_goals rfl
@[simp] theorem State.takeSegDelete_pending (s : State) (p : List Byte) :
    (s.takeSegDelete p).1.pending = s.pending := by
  unfold State.takeSegDelete; repeat' split
  all_goals rfl

/-! `State.takeSegWrite` -/
@[simp] theorem State.takeSegWrite_timing (s : State) (ch : Chan) (p : List Byte) :
    (s.takeSegWrite ch p).1.timing = s.timing := by
  unfold State.takeSegWrite; simp only []; repeat' split
  all_goals rfl
@[simp] theorem State.takeSegWrite_link (s : State) (ch : Chan) (p : List Byte) :
    (s.takeSegWrite ch p).1.link = s.link := by
  unfold State.takeSegWrite; simp only []; repeat' split
  all_goals rfl
@[simp] theorem State.takeSegWrite_comp (s : State) (ch : Chan) (p : List Byte) :
    (s.takeSegWrite ch p).1.comp = s.comp := by
  unfold State.takeSegWrite; simp only []; repeat' split
  all_goals rfl
@[simp] theorem State.takeSegWrite_cset (s : State) (ch : Chan) (p : List Byte) :
    (s.takeSegWrite ch p).1.cset = s.cset := by
  unfold State.takeSegWrite; simp only []; repeat' split
  all_goals rfl
@[simp] theorem State.takeSegWrite_pkt (s : State) (ch : Chan) (p : List Byte) :
    (s.takeSegWrite ch p).1.pkt = s.pkt := by
  unfold State.takeSegWrite; simp only []; repeat' split
  all_goals rfl
@[simp] theorem State.takeSegWrite_chn (s : State) (ch : Chan) (p : List Byte) :
    (s.takeSegWrite ch p).1.chn = s.chn := by
  unfold State.takeSegWrite; simp only []; repeat' split
  all_goals rfl
@[simp] theorem State.takeSegWrite_status (s : State) (ch : Chan) (p : List Byte) :
    (s.takeSegWrite ch p).1.status = s.status := by
  unfold State.takeSegWrite; simp only []; repeat' split
  all_goals rfl
@[simp] theorem State.takeSegWrite_headOpen (s : State) (ch : Chan) (p : List Byte) :
    (s.takeSegWrite ch p).1.headOpen = s.headOpen := by
  unfold State.takeSegWrite; simp only []; repeat' split
  all_goals rfl
@[simp] theorem State.takeSegWrite_pending (s : State) (ch : Chan) (p : List Byte) :
    (s.takeSegWrite ch p).1.pending = s.pending := by
  unfold State.takeSegWrite; simp only []; repeat' split
  all_goals rfl

/-! `State.takeSegClose` -/
@[simp] theorem State.takeSegClose_timing (s : State) (ch : Chan) (p : List Byte) :
    (s.takeSegClose ch p).1.timing = s.timing := by
  unfold State.takeSegClose; simp only []; repeat' split
  all_goals rfl
@[simp] theorem State.takeSegClose_link (s : State) (ch : Chan) (p : List Byte) :
    (s.takeSegClose ch p).1.link = s.link := by
  unfold State.takeSegClose; simp only []; repeat' split
  all_goals rfl
@[simp] theorem State.takeSegClose_comp (s : State) (ch : Chan) (p : List Byte) :
    (s.takeSegClose ch p).1.comp = s.comp := by
  unfold State.takeSegClose; simp only []; repeat' split
  all_goals rfl
@[simp] theorem State.takeSegClose_cset (s : State) (ch : Chan) (p : List Byte) :
    (s.takeSegClose ch p).1.cset = s.cset := by
  unfold State.takeSegClose; simp only []; repeat' split
  all_goals rfl
@[simp] theorem State.takeSegClose_pkt (s : State) (ch : Chan) (p : List Byte) :
    (s.takeSegClose ch p).1.pkt = s.pkt := by
  unfold State.takeSegClose; simp only []; repeat' split
  all_goals rfl
@[simp] theorem State.takeSegClose_chn (s : State) (ch : Chan) (p : List Byte) :
    (s.takeSegClose ch p).1.chn = s.chn := by
  unfold State.takeSegClose; simp only []; repeat' split
  all_goals rfl
@[simp] theorem State.takeSegClose_status (s : State) (ch : Chan) (p : List Byte) :
    (s.takeSegClose ch p).1.status = s.status := by
  unfold State.takeSegClose; simp only []; repeat' split
  all_goals rfl
@[simp] theorem State.takeSegClose_headOpen (s : State) (ch : Chan) (p : List Byte) :
    (s.takeSegClose ch p).1.headOpen = s.headOpen := by
  unfold State.takeSegClose; simp only []; repeat' split
  all_goals rfl
@[simp] theorem State.takeSegClose_pending (s : State) (ch : Chan) (p : List Byte) :
    (s.takeSegClose ch p).1.pending = s.pending := by
  unfold State.takeSegClose; simp only []; repeat' split
  all_goals rfl

/-! `State.takeQueryStatus` -/
@[simp] theorem State.takeQueryStatus_timing (s : State) (p : List Byte) :
    (s.takeQueryStatus p).1.timing = s.timing := by
  unfold State.takeQueryStatus; split <;> simp only []; split <;> rfl
@[simp] theorem State.takeQueryStatus_link (s : State) (p : List Byte) :
    (s.takeQueryStatus p).1.link = s.link := by
  unfold State.takeQueryStatus; split <;> simp only []; split <;> rfl
@[simp] theorem State.takeQueryStatus_comp (s : State) (p : List Byte) :
    (s.takeQueryStatus p).1.comp = s.comp := by
  unfold State.takeQueryStatus; split <;> simp only []; split <;> rfl
@[simp] theorem State.takeQueryStatus_cset (s : State) (p : List Byte) :
    (s.takeQueryStatus p).1.cset = s.cset := by
  unfold State.takeQueryStatus; split <;> simp only []; split <;> rfl
@[simp] theorem State.takeQueryStatus_store (s : State) (p : List Byte) :
    (s.takeQueryStatus p).1.store = s.store := by
  unfold State.takeQueryStatus; split <;> simp only []; split <;> rfl
@[simp] theorem State.takeQueryStatus_pkt (s : State) (p : List Byte) :
    (s.takeQueryStatus p).1.pkt = s.pkt := by
  unfold State.takeQueryStatus; split <;> simp only []; split <;> rfl
@[simp] theorem State.takeQueryStatus_chn (s : State) (p : List Byte) :
    (s.takeQueryStatus p).1.chn = s.chn := by
  unfold State.takeQueryStatus; split <;> simp only []; split <;> rfl
@[simp] theorem State.takeQueryStatus_headOpen (s : State) (p : List Byte) :
    (s.takeQueryStatus p).1.headOpen = s.headOpen := by
  unfold State.takeQueryStatus; split <;> simp only []; split <;> rfl
@[simp] theorem State.takeQueryStatus_pending (s : State) (p : List Byte) :
    (s.takeQueryStatus p).1.pending = s.pending := by
  unfold State.takeQueryStatus; split <;> simp only []; split <;> rfl

/-- `State.takeQueryWindow` changes nothing. -/
@[simp] theorem State.takeQueryWindow_state (s : State) (p : List Byte) : (s.takeQueryWindow p).1 = s := by
  unfold State.takeQueryWindow; repeat' split
  all_goals rfl

/-- `State.takeQueryPalette` changes nothing. -/
@[simp] theorem State.takeQueryPalette_state (s : State) (p : List Byte) : (s.takeQueryPalette p).1 = s := by
  unfold State.takeQueryPalette; repeat' split
  all_goals rfl

/-- `State.takeQuerySegment` changes nothing. -/
@[simp] theorem State.takeQuerySegment_state (s : State) (p : List Byte) : (s.takeQuerySegment p).1 = s := by
  unfold State.takeQuerySegment; repeat' split
  all_goals rfl

/-- `State.takeQueryDirectory` changes nothing. -/
@[simp] theorem State.takeQueryDirectory_state (s : State) (p : List Byte) : (s.takeQueryDirectory p).1 = s := by
  rfl

/-- `State.takeParamQuery` changes nothing. -/
@[simp] theorem State.takeParamQuery_state (s : State) (p : List Byte) : (s.takeParamQuery p).1 = s := by
  unfold State.takeParamQuery; repeat' split
  all_goals rfl

/-! `State.takeParamSet` -/
@[simp] theorem State.takeParamSet_timing (s : State) (p : List Byte) :
    (s.takeParamSet p).1.timing = s.timing := by
  unfold State.takeParamSet; split <;> rfl
@[simp] theorem State.takeParamSet_link (s : State) (p : List Byte) :
    (s.takeParamSet p).1.link = s.link := by
  unfold State.takeParamSet; split <;> rfl
@[simp] theorem State.takeParamSet_comp (s : State) (p : List Byte) :
    (s.takeParamSet p).1.comp = s.comp := by
  unfold State.takeParamSet; split <;> rfl
@[simp] theorem State.takeParamSet_cset (s : State) (p : List Byte) :
    (s.takeParamSet p).1.cset = s.cset := by
  unfold State.takeParamSet; split <;> rfl
@[simp] theorem State.takeParamSet_store (s : State) (p : List Byte) :
    (s.takeParamSet p).1.store = s.store := by
  unfold State.takeParamSet; split <;> rfl
@[simp] theorem State.takeParamSet_pkt (s : State) (p : List Byte) :
    (s.takeParamSet p).1.pkt = s.pkt := by
  unfold State.takeParamSet; split <;> rfl
@[simp] theorem State.takeParamSet_chn (s : State) (p : List Byte) :
    (s.takeParamSet p).1.chn = s.chn := by
  unfold State.takeParamSet; split <;> rfl
@[simp] theorem State.takeParamSet_headOpen (s : State) (p : List Byte) :
    (s.takeParamSet p).1.headOpen = s.headOpen := by
  unfold State.takeParamSet; split <;> rfl
@[simp] theorem State.takeParamSet_pending (s : State) (p : List Byte) :
    (s.takeParamSet p).1.pending = s.pending := by
  unfold State.takeParamSet; split <;> rfl

/-! `State.takePartReset` -/
@[simp] theorem State.takePartReset_timing (s : State) (p : List Byte) :
    (s.takePartReset p).1.timing = s.timing := by
  unfold State.takePartReset; split <;> rfl
@[simp] theorem State.takePartReset_link (s : State) (p : List Byte) :
    (s.takePartReset p).1.link = s.link := by
  unfold State.takePartReset; split <;> rfl
@[simp] theorem State.takePartReset_comp (s : State) (p : List Byte) :
    (s.takePartReset p).1.comp = s.comp := by
  unfold State.takePartReset; split <;> rfl
@[simp] theorem State.takePartReset_cset (s : State) (p : List Byte) :
    (s.takePartReset p).1.cset = s.cset := by
  unfold State.takePartReset; split <;> rfl
@[simp] theorem State.takePartReset_store (s : State) (p : List Byte) :
    (s.takePartReset p).1.store = s.store := by
  unfold State.takePartReset; split <;> rfl
@[simp] theorem State.takePartReset_pkt (s : State) (p : List Byte) :
    (s.takePartReset p).1.pkt = s.pkt := by
  unfold State.takePartReset; split <;> rfl
@[simp] theorem State.takePartReset_chn (s : State) (p : List Byte) :
    (s.takePartReset p).1.chn = s.chn := by
  unfold State.takePartReset; split <;> rfl
@[simp] theorem State.takePartReset_headOpen (s : State) (p : List Byte) :
    (s.takePartReset p).1.headOpen = s.headOpen := by
  unfold State.takePartReset; split <;> rfl
@[simp] theorem State.takePartReset_pending (s : State) (p : List Byte) :
    (s.takePartReset p).1.pending = s.pending := by
  unfold State.takePartReset; split <;> rfl

end Sys2Proof.Machine
end

