-- ==== Sys2Proof/Laws/Runs.lean ====
section
/-! SUPPORT. Laws/Runs.lean: all that a command can do to the overlay picture, said once: the compositor, the change
sets and the store go from what they were to what they are by a run of a few kinds of moves. A law that each move
keeps, every command keeps. -/

namespace Sys2Proof.Machine

/-! ### Moves of the store -/

/-- What one operation can do to the store. -/
inductive Store.Move (st : Store) : Store → Prop
  /-- A record changes in anything but its id, length and blocks (R68). -/
  | retag (id : Nat) (f : Segment → Segment)
      (h : ∀ g, (f g).id = g.id ∧ (f g).length = g.length ∧ (f g).blocks = g.blocks) : Store.Move st (st.update id f)
  /-- The access queue changes (R73). -/
  | queue (q : List StoreOp) : Store.Move st { st with queue := q }
  /-- A segment of the directory is freed (R67, R84, R87). -/
  | free (g : Segment) (h : st.seg g.id = some g) : Store.Move st (st.free g)
  /-- A segment is created (R72). -/
  | create (id length : Nat) (hnew : st.seg id = none) (hroom : blocksFor length ≤ st.freeList.length) :
      Store.Move st (st.create id length)
  /-- A write's data land (R77). -/
  | land (id offset : Nat) (data : List Byte) : Store.Move st (st.land id offset data)
  /-- An OVERLAY reset (R93). -/
  | overlay : Store.Move st st.overlayReset
  /-- A FULL reset (R94). -/
  | full : Store.Move st st.fullReset

/-- A run of moves of the store. -/
inductive Store.Run : Store → Store → Prop
  | refl (st : Store) : Store.Run st st
  | step {a b c : Store} (h : Store.Run a b) (m : Store.Move b c) : Store.Run a c

theorem Store.Run.one {a b : Store} (m : Store.Move a b) : Store.Run a b := .step (.refl a) m

theorem Store.Run.trans {a b c : Store} (h : Store.Run a b) (k : Store.Run b c) : Store.Run a c := by
  induction k with
  | refl => exact h
  | step _ m ih => exact .step ih m

/-- A law that every move keeps, every run keeps. -/
theorem Store.Run.keeps {P : Store → Prop} (hP : ∀ a b, Store.Move a b → P a → P b) {a b : Store}
    (h : Store.Run a b) (ha : P a) : P b := by
  induction h with
  | refl => exact ha
  | step _ m ih => exact hP _ _ m ih

/-- One record changes, then the access queue. -/
theorem Store.Run.retagQueue (st : Store) (id : Nat) (f : Segment → Segment) (q : List StoreOp)
    (h : ∀ g, (f g).id = g.id ∧ (f g).length = g.length ∧ (f g).blocks = g.blocks) :
    Store.Run st { st.update id f with queue := q } :=
  .step (.one (.retag id f h)) (.queue q)

theorem Store.enqueue_run (st : Store) (id : Nat) (op : StoreOp) : Store.Run st (st.enqueue id op) :=
  .retagQueue st id _ _ fun _ => ⟨rfl, rfl, rfl⟩

theorem Store.dequeue_run (st : Store) (id : Nat) : Store.Run st (st.dequeue id) :=
  .retagQueue st id _ _ fun _ => ⟨rfl, rfl, rfl⟩

theorem Store.claimStaged_run (st : Store) (segment : Option Nat) : Store.Run st (st.claimStaged segment) := by
  unfold Store.claimStaged
  split
  · exact .one (.retag _ _ fun _ => ⟨rfl, rfl, rfl⟩)
  · exact .refl st

theorem Store.releaseStaged_run (st : Store) (edits : List Edit) : Store.Run st (st.releaseStaged edits) := by
  unfold Store.releaseStaged
  induction edits generalizing st with
  | nil => exact .refl st
  | cons e es ih =>
    rw [List.foldl_cons]
    refine Store.Run.trans ?_ (ih _)
    split
    · split
      · exact .one (.retag _ _ fun _ => ⟨rfl, rfl, rfl⟩)
      · exact .refl st
    · exact .refl st

/-- The record found under an id has that id. -/
theorem Store.seg_id {st : Store} {id : Nat} {g : Segment} (h : st.seg id = some g) : g.id = id := by
  have := List.find?_some h
  simpa using this

/-- The record found under an id is in the directory. -/
theorem Store.seg_mem {st : Store} {id : Nat} {g : Segment} (h : st.seg id = some g) : g ∈ st.dir :=
  List.mem_of_find?_eq_some h

theorem Store.free_run {st : Store} {id : Nat} {g : Segment} (h : st.seg id = some g) : Store.Run st (st.free g) :=
  .one (.free g (by rw [Store.seg_id h]; exact h))

theorem State.activeRelease_run (s : State) (f : FrameNo) (id : Nat) :
    Store.Run s.store (s.activeRelease f id).store := by
  unfold State.activeRelease
  split
  · exact .refl _
  · next g hg =>
    split
    · simpa using Store.free_run hg
    · exact .one (.retag _ _ fun _ => ⟨rfl, rfl, rfl⟩)

theorem State.activeMove_run (s : State) (f : FrameNo) (a b : Option Nat) :
    Store.Run s.store (s.activeMove f a b).store := by
  unfold State.activeMove
  split
  · exact .refl _
  · have h1 : Store.Run s.store (match a with
        | some id => s.activeRelease f id
        | none => s).store := by
      cases a with
      | none => exact .refl _
      | some id => exact s.activeRelease_run f id
    cases b with
    | none => exact h1
    | some id => exact .step h1 (.retag id _ fun _ => ⟨rfl, rfl, rfl⟩)

theorem State.activeMoves_run (s : State) (f : FrameNo) (before after : List (Option Nat)) :
    Store.Run s.store (s.activeMoves f before after).store := by
  unfold State.activeMoves
  generalize before.zip after = l
  induction l generalizing s with
  | nil => exact .refl _
  | cons m ms ih => exact (s.activeMove_run f m.1 m.2).trans (ih _)

/-- What an application's reference changes leave alone. -/
theorem State.activeMoves_frame (s : State) (f : FrameNo) (before after : List (Option Nat)) :
    (s.activeMoves f before after).comp = s.comp ∧ (s.activeMoves f before after).cset = s.cset ∧
      (s.activeMoves f before after).timing = s.timing ∧ (s.activeMoves f before after).link = s.link ∧
      (s.activeMoves f before after).chn = s.chn ∧ (s.activeMoves f before after).headOpen = s.headOpen ∧
      (s.activeMoves f before after).pending = s.pending := by
  unfold State.activeMoves
  generalize before.zip after = l
  induction l generalizing s with
  | nil => simp
  | cons m ms ih =>
    rw [List.foldl_cons]
    have hstep : (s.activeMove f m.1 m.2).comp = s.comp ∧ (s.activeMove f m.1 m.2).cset = s.cset ∧
        (s.activeMove f m.1 m.2).timing = s.timing ∧ (s.activeMove f m.1 m.2).link = s.link ∧
        (s.activeMove f m.1 m.2).chn = s.chn ∧ (s.activeMove f m.1 m.2).headOpen = s.headOpen ∧
        (s.activeMove f m.1 m.2).pending = s.pending := by
      have hrel (id : Nat) : (s.activeRelease f id).comp = s.comp ∧ (s.activeRelease f id).cset = s.cset ∧
          (s.activeRelease f id).timing = s.timing ∧ (s.activeRelease f id).link = s.link ∧
          (s.activeRelease f id).chn = s.chn ∧ (s.activeRelease f id).headOpen = s.headOpen ∧
          (s.activeRelease f id).pending = s.pending := by
        unfold State.activeRelease
        split
        · simp
        · split <;> simp
      unfold State.activeMove
      split
      · simp
      · cases m.1 <;> cases m.2 <;> simp [hrel]
    have h := ih (s.activeMove f m.1 m.2)
    simp only [hstep] at h
    exact h

/-! ### Moves of the picture -/

/-- The compositor, the change sets and the store: what the overlay picture rests on. -/
structure Picture where
  comp : Compositor
  cset : ChangeSet
  store : Store

/-- The picture of a state. -/
def State.picture (s : State) : Picture := ⟨s.comp, s.cset, s.store⟩

/-- What one operation can do to the picture. -/
inductive Picture.Move (c : Compositor) (cs : ChangeSet) (st : Store) : Picture → Prop
  /-- The store moves. -/
  | store {st' : Store} (h : Store.Run st st') : Picture.Move c cs st ⟨c, cs, st'⟩
  /-- Phases, shown decisions and the latch change, the tables do not (R16, R18, R19). -/
  | blink {c' : Compositor} (hw : c'.wins = c.wins) (hp : c'.palettes = c.palettes) (hf : c'.fill = c.fill) :
      Picture.Move c cs st ⟨c', cs, st⟩
  /-- An edit is staged (R37, R38). -/
  | stage (e : Edit) (hn : cs.openSet.length < Config.maxEdits)
      (hb : stagedBytes cs.openSet + e.bytes ≤ Config.maxStagedBytes) :
      Picture.Move c cs st ⟨c, { cs with openSet := cs.openSet ++ [e] }, st⟩
  /-- A commit is taken (R51). -/
  | commit (t : Target) (hs : cs.scheduled = none)
      (hp : projectionRefusal st (c.writeAll cs.openSet).wins = none) :
      Picture.Move c cs st ⟨c, { cs with openSet := [], scheduled := some { edits := cs.openSet, target := t } }, st⟩
  /-- The open set is discarded (R60). -/
  | discard : Picture.Move c cs st ⟨c, { cs with openSet := [] }, st⟩
  /-- The scheduled set is withdrawn (R61). -/
  | withdraw : Picture.Move c cs st ⟨c, { cs with scheduled := none }, st⟩
  /-- The scheduled set is applied (R55). -/
  | apply (f : FrameNo) (set : Scheduled) (h : cs.scheduled = some set) :
      Picture.Move c cs st ⟨c.apply set.edits, { cs with scheduled := none, lastApp := some f }, st⟩
  /-- A PART_RESET takes effect (R21, R64). -/
  | soft : Picture.Move c cs st ⟨c.softReset, ChangeSet.reset, st⟩
  /-- A hard reset (R20, R63, R92). -/
  | hard : Picture.Move c cs st ⟨Compositor.reset, ChangeSet.reset, Store.reset⟩

/-- A run of moves of the picture. -/
inductive Picture.Run : Picture → Picture → Prop
  | refl (p : Picture) : Picture.Run p p
  | step {a b c : Picture} (h : Picture.Run a b) (m : Picture.Move b.comp b.cset b.store c) : Picture.Run a c

theorem Picture.Run.trans {a b c : Picture} (h : Picture.Run a b) (k : Picture.Run b c) : Picture.Run a c := by
  induction k with
  | refl => exact h
  | step _ m ih => exact .step ih m

/-- A law that every move keeps, every run keeps. -/
theorem Picture.Run.keeps {P : Picture → Prop}
    (hP : ∀ c cs st b, Picture.Move c cs st b → P ⟨c, cs, st⟩ → P b) {a b : Picture} (h : Picture.Run a b)
    (ha : P a) : P b := by
  induction h with
  | refl => exact ha
  | step _ m ih => exact hP _ _ _ _ m ih

/-- State `t` comes from `s` by a run of the picture. -/
def State.Runs (s t : State) : Prop := Picture.Run s.picture t.picture

theorem State.Runs.refl (s : State) : s.Runs s := Picture.Run.refl _

theorem State.Runs.trans {s t u : State} (h : s.Runs t) (k : t.Runs u) : s.Runs u := Picture.Run.trans h k

/-- A state with the same picture. -/
theorem State.Runs.same {s t : State} (hc : t.comp = s.comp) (hs : t.cset = s.cset) (hst : t.store = s.store) :
    s.Runs t := by
  have : t.picture = s.picture := by simp [State.picture, hc, hs, hst]
  unfold State.Runs
  rw [this]
  exact .refl _

/-- A run from a state with the same picture. -/
theorem State.Runs.after {s t u : State} (k : t.Runs u) (hc : t.comp = s.comp) (hs : t.cset = s.cset)
    (hst : t.store = s.store) : s.Runs u :=
  (State.Runs.same hc hs hst).trans k

/-- A state whose picture differs by one move. -/
theorem State.Runs.move {s t : State} (m : Picture.Move s.comp s.cset s.store t.picture) : s.Runs t :=
  Picture.Run.step (.refl _) m

/-- A state whose picture differs by moves of the store. -/
theorem State.Runs.ofStore {s t : State} (hc : t.comp = s.comp) (hs : t.cset = s.cset)
    (hst : Store.Run s.store t.store) : s.Runs t := by
  apply State.Runs.move
  unfold State.picture
  rw [hc, hs]
  exact .store hst

/-! ### The owners -/

theorem State.stage_runs (s : State) (e : Edit) : s.Runs (s.stage e).1 := by
  unfold State.stage
  split
  · exact .refl s
  · next h =>
    simp only [not_or, Nat.not_le, Nat.not_lt] at h
    exact .move (.stage e h.1 h.2)

theorem State.takeWinStage_runs (s : State) (p : List Byte) : s.Runs (s.takeWinStage p).1 := by
  unfold State.takeWinStage
  split
  · exact .refl s
  · simp only []
    split
    · exact .refl s
    · have h := s.stage_runs (.winStage (u1 p 0) (windowOf p))
      split
      · next s' payload heq =>
        rw [heq] at h
        exact h.trans (.ofStore rfl rfl (Store.claimStaged_run _ _))
      · exact h

theorem State.takeSetCommit_runs (s : State) (p : List Byte) : s.Runs (s.takeSetCommit p).1 := by
  unfold State.takeSetCommit
  split
  · exact .refl s
  · split
    · exact .refl s
    · next hs =>
      split
      · exact .refl s
      · split
        · exact .refl s
        · split
          · exact .refl s
          · next hp => exact .move (.commit _ hs hp)

theorem State.takeSetDiscard_runs (s : State) (p : List Byte) : s.Runs (s.takeSetDiscard p).1 := by
  unfold State.takeSetDiscard
  split
  · exact .refl s
  · refine State.Runs.trans (t := { s with store := s.store.releaseStaged s.cset.openSet })
      (.ofStore rfl rfl (Store.releaseStaged_run _ _)) ?_
    exact .move .discard

theorem State.takeSetWithdraw_runs (s : State) (p : List Byte) : s.Runs (s.takeSetWithdraw p).1 := by
  unfold State.takeSetWithdraw
  split
  · next w _ =>
    refine State.Runs.trans (t := { s with store := s.store.releaseStaged w.edits })
      (.ofStore rfl rfl (Store.releaseStaged_run _ _)) ?_
    exact .move .withdraw
  · exact .refl s

theorem State.takeSegCreate_runs (s : State) (p : List Byte) : s.Runs (s.takeSegCreate p).1 := by
  refine .ofStore (by simp) (by simp) ?_
  unfold State.takeSegCreate
  simp only []
  split
  · exact .refl _
  · split
    · exact .refl _
    · next hnew =>
      split
      · exact .refl _
      · split
        · exact .refl _
        · next hroom => exact .one (.create _ _ hnew (Nat.not_lt.mp hroom))

theorem State.takeSegDelete_runs (s : State) (p : List Byte) : s.Runs (s.takeSegDelete p).1 := by
  refine .ofStore (by simp) (by simp) ?_
  unfold State.takeSegDelete
  split
  · exact .refl _
  · next g hg =>
    split
    · exact .refl _
    · split
      · exact .refl _
      · split
        · exact .refl _
        · split
          · exact Store.free_run hg
          · exact .one (.retag _ _ fun _ => ⟨rfl, rfl, rfl⟩)

theorem State.takeSegWrite_runs (s : State) (ch : Chan) (p : List Byte) : s.Runs (s.takeSegWrite ch p).1 := by
  refine .ofStore (by simp) (by simp) ?_
  unfold State.takeSegWrite
  simp only []
  split
  · exact .refl _
  · split
    · exact .refl _
    · exact .refl _
    · exact .refl _
    · split
      · exact .refl _
      · exact Store.enqueue_run _ _ _

theorem State.takeSegClose_runs (s : State) (ch : Chan) (p : List Byte) : s.Runs (s.takeSegClose ch p).1 := by
  refine .ofStore (by simp) (by simp) ?_
  unfold State.takeSegClose
  simp only []
  split
  · exact .refl _
  · split
    · exact .refl _
    · exact .refl _
    · exact .refl _
    · refine Store.Run.trans (.one (.retag (u4 p 0) (fun h => { h with state := .verifying }) fun _ => ⟨rfl, rfl, rfl⟩)) ?_
      exact Store.enqueue_run _ _ _

theorem State.dispatch_runs (s : State) (k : Kind) (ch : Chan) (p : List Byte) : s.Runs (s.dispatch k ch p).1 := by
  cases k with
  | winStage => exact s.takeWinStage_runs p
  | winPlace =>
    show s.Runs (s.takeWinPlace p).1
    unfold State.takeWinPlace; split
    · exact .refl s
    · exact s.stage_runs _
  | winShow =>
    show s.Runs (s.takeWinShow p).1
    unfold State.takeWinShow; split
    · exact .refl s
    · exact s.stage_runs _
  | palStage =>
    show s.Runs (s.takePalStage p).1
    unfold State.takePalStage; split
    · exact .refl s
    · exact s.stage_runs _
  | fillStage =>
    show s.Runs (s.takeFillStage p).1
    unfold State.takeFillStage; split
    · exact .refl s
    · exact s.stage_runs _
  | setCommit => exact s.takeSetCommit_runs p
  | setDiscard => exact s.takeSetDiscard_runs p
  | setWithdraw => exact s.takeSetWithdraw_runs p
  | segCreate => exact s.takeSegCreate_runs p
  | segWrite => exact s.takeSegWrite_runs ch p
  | segClose => exact s.takeSegClose_runs ch p
  | segDelete => exact s.takeSegDelete_runs p
  | queryStatus => exact .same (s.takeQueryStatus_comp p) (s.takeQueryStatus_cset p) (s.takeQueryStatus_store p)
  | queryWindow => exact .same (by simp [State.dispatch]) (by simp [State.dispatch]) (by simp [State.dispatch])
  | queryPalette => exact .same (by simp [State.dispatch]) (by simp [State.dispatch]) (by simp [State.dispatch])
  | querySegment => exact .same (by simp [State.dispatch]) (by simp [State.dispatch]) (by simp [State.dispatch])
  | queryDirectory => exact .same (by simp [State.dispatch]) (by simp [State.dispatch]) (by simp [State.dispatch])
  | paramSet => exact .same (s.takeParamSet_comp p) (s.takeParamSet_cset p) (s.takeParamSet_store p)
  | paramQuery => exact .same (by simp [State.dispatch]) (by simp [State.dispatch]) (by simp [State.dispatch])
  | partReset => exact .same (s.takePartReset_comp p) (s.takePartReset_cset p) (s.takePartReset_store p)
  | resync => exact .refl s

/-! ### The Channel Unit -/

theorem State.judge_runs (s : State) (ch : Chan) (seq : SeqNo) (kind : Byte) (p : List Byte) :
    s.Runs (s.judge ch seq kind p) := by
  unfold State.judge
  split
  · split
    · exact .same (by simp) (by simp) (by simp)
    · exact .same (by simp) (by simp) (by simp)
  · split
    · next k _ =>
      exact (State.Runs.same (t := s.advance ch seq) (by simp) (by simp) (by simp)).trans
        (((s.advance ch seq).dispatch_runs k ch p).trans (.same (by simp) (by simp) (by simp)))
    · exact .refl s

theorem State.complete_runs (s : State) (ch : Chan) (seq : SeqNo) (kind : Byte) (p : List Byte) :
    s.Runs (s.complete ch seq kind p) := by
  unfold State.complete
  simp only []
  split
  · exact (State.Runs.same (t := (s.dropAssembly ch).reserve ch) (by simp) (by simp) (by simp)).trans
      (State.judge_runs _ _ _ _ _)
  · exact .same (by simp) (by simp) (by simp)

theorem State.idleFragment_runs (s : State) (f : Fragment) : s.Runs (s.idleFragment f) := by
  unfold State.idleFragment
  simp only []
  split
  · exact .same (by simp) (by simp) (by simp)
  · split
    · split
      · split
        · exact s.complete_runs _ _ _ _
        · split
          · exact .same (by simp) (by simp) (by simp)
          · exact .same (by simp) (by simp) (by simp)
      · exact .refl s
    · exact .same (by simp) (by simp) (by simp)

theorem State.fragment_runs (s : State) (f : Fragment) : s.Runs (s.fragment f) := by
  unfold State.fragment
  split
  · exact .same (by simp) (by simp) (by simp)
  · split
    · unfold State.assemblingFragment
      split
      · split
        · split
          · exact .same (by simp) (by simp) (by simp)
          · split
            · exact s.complete_runs _ _ _ _
            · exact .same (by simp) (by simp) (by simp)
        · split
          · exact .refl s
          · exact .same (by simp) (by simp) (by simp)
      · exact (State.Runs.same (t := s.dropAssembly f.ch) (by simp) (by simp) (by simp)).trans
          (State.idleFragment_runs _ f)
    · exact .same (by simp) (by simp) (by simp)
    · exact .same (by simp) (by simp) (by simp)
    · exact s.idleFragment_runs f

theorem State.receive_runs (s : State) (k : Kind) (ch : Chan) (seq : SeqNo) (p : List Byte) :
    s.Runs (s.receive k ch seq p) := by
  have fold (l : List Fragment) : ∀ s : State, s.Runs (l.foldl State.fragment s) := by
    induction l with
    | nil => exact .refl
    | cons f fs ih => exact fun s => (s.fragment_runs f).trans (ih _)
  unfold State.receive
  split
  · exact fold _ s
  · exact .refl s

/-! ### An output frame head -/

theorem State.applySet_runs (s : State) (f : FrameNo) (set : Scheduled) (h : s.cset.scheduled = some set) :
    s.Runs (s.applySet f set) := by
  have h1 : s.Runs { s with comp := s.comp.apply set.edits
                            cset := { s.cset with scheduled := none, lastApp := some f } } :=
    .move (.apply f set h)
  refine h1.trans (.ofStore ?_ ?_ ?_)
  · simp [State.applySet, State.activeMoves_frame]
  · simp [State.applySet, State.activeMoves_frame]
  · simp only [State.applySet, State.reportApplied_store]
    exact (Store.releaseStaged_run _ _).trans (State.activeMoves_run { s with
      comp := s.comp.apply set.edits, store := s.store.releaseStaged set.edits } f _ _)

theorem State.dueSet_scheduled {s : State} {f : FrameNo} {set : Scheduled} (h : s.dueSet = some (f, set)) :
    s.cset.scheduled = some set := by
  unfold State.dueSet at h
  split at h
  · next hs =>
    split at h
    · simp only [Option.some.injEq, Prod.mk.injEq] at h
      rw [hs, h.2]
    · exact absurd h (by simp)
  · exact absurd h (by simp)

theorem State.applyDue_runs (s : State) : s.Runs s.applyDue := by
  unfold State.applyDue
  split
  · next f set h => exact s.applySet_runs f set (State.dueSet_scheduled h)
  · exact .refl s

theorem State.settle_runs (s : State) : s.Runs s.settle := by
  unfold State.settle
  split
  · exact s.applyDue_runs.trans (.same (by simp) (by simp) (by simp))
  · exact .refl s

theorem Compositor.wins_map_phase (c : Compositor) (g : WinSlot → WinSlot) (h : ∀ sl, (g sl).win = sl.win) :
    ({ c with slots := c.slots.map g } : Compositor).wins = c.wins := by
  simp [Compositor.wins, Function.comp_def, h]

theorem Compositor.atHead_wins (c : Compositor) (l : LockState) : (c.atHead l).wins = c.wins := by
  simp [Compositor.wins, Compositor.atHead, Compositor.decideShown, Function.comp_def]

theorem Compositor.hideAll_wins (c : Compositor) : c.hideAll.wins = c.wins := by
  simp [Compositor.wins, Compositor.hideAll, Function.comp_def]

theorem State.atOutputHead_runs (s : State) (f : FrameNo) : s.Runs (s.atOutputHead f) := by
  apply State.Runs.move
  unfold State.picture
  simp only [State.atOutputHead_comp, State.atOutputHead_cset, State.atOutputHead_store]
  exact .blink (Compositor.atHead_wins _ _) rfl rfl

/-! ### Resets and lock states -/

theorem State.resetEffect_runs (s : State) (path : ResetPath) : s.Runs (s.resetEffect path) := by
  unfold State.resetEffect
  split
  · refine State.Runs.trans (t := { s with store := s.store.overlayReset }) (.ofStore rfl rfl (.one .overlay)) ?_
    exact .move .soft
  · refine State.Runs.trans (t := { s with store := s.store.fullReset }) (.ofStore rfl rfl (.one .full)) ?_
    exact .move .soft
  · exact .refl s

theorem State.resetAtNoSignal_runs (s : State) : s.Runs s.resetAtNoSignal := by
  unfold State.resetAtNoSignal
  split
  · exact State.Runs.after (State.resetEffect_runs _ _) rfl rfl rfl
  · exact .refl s

theorem State.reportLock_runs (s : State) (a b : LockState) (c : LockCause) : s.Runs (s.reportLock a b c) :=
  .same (by simp) (by simp) (by simp)

theorem State.enterNoSignal_runs (s : State) (cause : LockCause) : s.Runs (s.enterNoSignal cause) := by
  unfold State.enterNoSignal
  simp only []
  refine State.Runs.trans ?_ ((State.resetAtNoSignal_runs _).trans (State.reportLock_runs _ _ _ _))
  apply State.Runs.move
  exact .blink (Compositor.hideAll_wins _) rfl rfl

theorem State.enter_runs (s : State) (t : Timing) (cause : LockCause) : s.Runs (s.enter t cause) := by
  unfold State.enter
  exact State.Runs.after (State.reportLock_runs _ _ _ _) rfl rfl rfl

theorem State.leaveLocked_runs (s : State) (cause : LockCause) (g : Option Generator) :
    s.Runs (s.leaveLocked cause g) := by
  unfold State.leaveLocked
  split
  · exact s.enterNoSignal_runs cause
  · exact State.Runs.after (State.enter_runs _ _ _) rfl rfl rfl

theorem State.leaveRejoining_runs (s : State) : s.Runs s.leaveRejoining := by
  unfold State.leaveRejoining
  split
  · exact s.enterNoSignal_runs _
  · exact State.Runs.after (State.enter_runs _ _ _) rfl rfl rfl

theorem State.absence_runs (s : State) : s.Runs s.absence := by
  unfold State.absence
  split
  · exact s.enterNoSignal_runs _
  · exact s.leaveLocked_runs _ _
  · exact s.leaveRejoining_runs
  · exact .refl s
  · exact .refl s

theorem State.assess_runs (s : State) (shape : Option FrameShape) : s.Runs (s.assess shape) := by
  unfold State.assess
  simp only []
  split
  · exact State.Runs.after (State.enter_runs _ _ _) rfl rfl rfl
  · exact .same rfl rfl rfl

theorem State.judgeFrame_runs (s : State) (shape : Option FrameShape) : s.Runs (s.judgeFrame shape) := by
  unfold State.judgeFrame
  split
  · exact s.assess_runs shape
  · exact s.assess_runs shape
  · unfold State.judgeLocked
    split
    · exact .same rfl rfl rfl
    · simp only []
      split
      · exact State.Runs.after (State.leaveLocked_runs _ _ _) rfl rfl rfl
      · exact .same rfl rfl rfl
  · exact .refl s
  · exact .refl s

/-! ### Lines -/

theorem State.emitFree_runs (s : State) (width : Nat) (src : LineSource) (offset : Option Nat) :
    s.Runs (s.emitFree width src offset) := by
  have h : s.Runs (s.fixFree width).1 := by
    unfold State.fixFree
    split
    · exact .refl s
    · split
      · simp only []
        split
        · exact State.Runs.after (State.resetEffect_runs _ _) rfl rfl rfl
        · exact .same rfl rfl rfl
      · exact .refl s
  exact h.trans (.same rfl rfl rfl)

theorem State.relayHead_runs (s : State) (data : List DataWord) : s.Runs (s.relayHead data) := by
  unfold State.relayHead
  simp only []
  exact State.Runs.after (State.atOutputHead_runs _ _) rfl rfl rfl

theorem State.relayBlank_runs (s : State) (fr : InFrame) (pos : Nat) (data : List DataWord) :
    s.Runs (s.relayBlank fr pos data).1 := by
  unfold State.relayBlank
  split
  · simp only []
    refine (State.Runs.same (t := s.flagPacket (packetStream data)) (by simp) (by simp) (by simp)).trans ?_
    unfold State.relayManaged
    split
    · exact State.emitFree_runs _ _ _ _
    · exact State.emitFree_runs _ _ _ _
    all_goals exact .same rfl rfl rfl
  · exact .same rfl rfl rfl

theorem State.relayActive_runs (s : State) (fr : InFrame) (data : List DataWord) :
    s.Runs (s.relayActive fr data) := by
  unfold State.relayActive
  split
  · exact .same rfl rfl rfl
  · simp only []
    split <;> exact .same rfl rfl rfl

theorem State.relay_runs (s : State) (fr : InFrame) (data : List DataWord) : s.Runs (s.relay fr data).1 := by
  unfold State.relay
  split
  · exact s.relayHead_runs data
  · exact s.relayBlank_runs _ _ _
  · exact s.relayActive_runs _ _
  · exact .same rfl rfl rfl

theorem State.completeLine_runs (s : State) (data : List DataWord) : s.Runs (s.completeLine data).1 := by
  unfold State.completeLine
  split
  · exact .refl s
  · simp only []
    split
    · exact State.Runs.after (State.relay_runs _ _ _) rfl rfl rfl
    · exact State.Runs.after (State.relay_runs _ _ _) rfl rfl rfl
    · unfold State.examineOnly
      split <;> exact .same (by simp) (by simp) (by simp)
    · exact .refl s
    · exact .refl s

theorem State.handOn_runs (s : State) (f : Option Fragment) : s.Runs (s.handOn f) := by
  unfold State.handOn
  split
  · exact s.fragment_runs _
  · exact .refl s

theorem State.openLine_runs (s : State) (w : Lane) (n : Nat) : s.Runs (s.openLine w n) := by
  unfold State.openLine
  split
  · exact .refl s
  · split
    · simp only []
      split
      · exact (s.judgeFrame_runs none).trans (.same rfl rfl rfl)
      · exact s.judgeFrame_runs none
    · exact .same rfl rfl rfl

theorem State.beginFrame_runs (s : State) : s.Runs s.beginFrame := .same rfl rfl rfl

theorem State.takeHead_runs (s : State) (n : Nat) : s.Runs (s.takeHead n) := by
  unfold State.takeHead
  split
  · exact (s.judgeFrame_runs _).trans (.same rfl rfl rfl)
  · exact .same rfl rfl rfl

theorem State.frameHeadMarker_runs (s : State) (data : List DataWord) (n : Nat) (b : Bool) :
    s.Runs (s.frameHeadMarker data n b) := by
  have hf : s.Runs (s.frameHeadFollowed data n b) := by
    unfold State.frameHeadFollowed
    split
    · unfold State.frameHeadLocking
      simp only []
      refine (s.judgeFrame_runs (s.endedShape data n)).trans ((State.completeLine_runs _ data).trans ?_)
      split
      · exact (State.beginFrame_runs _).trans (State.handOn_runs _ _)
      · exact (State.handOn_runs _ _).trans (State.beginFrame_runs _)
    · unfold State.frameHeadJudging
      simp only []
      refine (s.completeLine_runs data).trans ((State.settle_runs _).trans ?_)
      split
      · exact (State.takeHead_runs _ _).trans (State.handOn_runs _ _)
      · exact (State.handOn_runs _ _).trans (State.takeHead_runs _ _)
  unfold State.frameHeadMarker
  split
  · exact (s.enter_runs _ _).trans (.same rfl rfl rfl)
  · exact (s.enter_runs _ _).trans (.same rfl rfl rfl)
  · exact hf
  · exact hf
  · exact hf

theorem State.markerFollowed_runs (s : State) (w : Lane) (data : List DataWord) (n : Nat) :
    s.Runs (s.markerFollowed w data n) := by
  unfold State.markerFollowed
  simp only []
  exact (s.completeLine_runs data).trans ((State.handOn_runs _ _).trans (State.openLine_runs _ _ _))

/-! ### The generator -/

theorem State.generatorHead_runs (s : State) : s.Runs s.generatorHead := by
  unfold State.generatorHead
  simp only []
  split
  · exact State.Runs.after (State.enterNoSignal_runs _ _) rfl rfl rfl
  · split
    · unfold State.emitHead
      simp only []
      exact State.Runs.after (State.atOutputHead_runs _ _) rfl rfl rfl
    · exact .same rfl rfl rfl

theorem State.generatorLine_runs (s : State) (g : Generator) : s.Runs (s.generatorLine g) := by
  unfold State.generatorLine
  simp only []
  split
  · split
    · exact State.Runs.after (State.emitFree_runs _ _ _ _) rfl rfl rfl
    · exact .same rfl rfl rfl
  all_goals exact .same rfl rfl rfl

theorem State.generatorBegin_runs (s : State) : s.Runs s.generatorBegin := by
  unfold State.generatorBegin
  split
  · exact .refl s
  · split
    · split
      · exact s.generatorHead_runs
      · exact .refl s
    · exact s.generatorLine_runs _

/-! ### Store completions -/

theorem State.completeWrite_runs (s : State) (id : Nat) (ch : Chan) (offset : Nat) (data : List Byte) :
    s.Runs (s.completeWrite id ch offset data) := by
  refine .ofStore (by simp) (by simp) ?_
  rw [State.completeWrite_store]
  exact (Store.Run.one (.land _ _ _)).trans (Store.dequeue_run _ _)

theorem State.completeVerify_runs (s : State) (id : Nat) (ch : Chan) (check : BitVec 32) :
    s.Runs (s.completeVerify id ch check) := by
  unfold State.completeVerify
  split
  · simp only []
    split
    · refine .ofStore (by simp) (by simp) ?_
      simp only [State.offerNotice_store, State.finishBulk_store]
      exact (Store.dequeue_run _ _).trans (.one (.retag _ _ fun _ => ⟨rfl, rfl, rfl⟩))
    · refine .ofStore (by simp) (by simp) ?_
      simp only [State.finishBulk_store]
      exact (Store.dequeue_run _ _).trans (.one (.retag _ _ fun _ => ⟨rfl, rfl, rfl⟩))
  · refine .ofStore (by simp) (by simp) ?_
    simp only [State.finishBulk_store]
    exact Store.dequeue_run _ _

/-! ### Commands -/

/-- The next state that a command answers. -/
def State.after (i : Instr) (s : State) : State :=
  match exec i s with
  | .next t => t
  | _ => s

/-- Every command answers a next state (log 4). -/
theorem exec_next (i : Instr) (s : State) : exec i s = .next (s.after i) := by
  unfold State.after
  cases i <;> rfl

/-- What a command does to the picture is a run of the picture. -/
theorem exec_runs {i : Instr} {s t : State} (h : exec i s = .next t) : s.Runs t := by
  cases i
  case hardReset strap =>
    simp only [exec, execHardReset, Host.Outcome.next.injEq] at h
    subst h
    exact .move .hard
  case lineMarker w data n =>
    simp only [exec, execLineMarker, Host.Outcome.next.injEq] at h
    subst h
    refine s.settle_runs.trans ?_
    unfold State.marker
    split
    · exact State.frameHeadMarker_runs _ _ _ _
    · split
      · exact .refl _
      · exact .refl _
      all_goals exact State.markerFollowed_runs _ _ _ _
  all_goals simp only [exec, execInputFrameHead, execAbsenceExpiry, execGeneratorLineBegin, execHoldoverLimitReached,
    execSetApplication, execAssemblyTimeout, execResponseEmission, execSegWriteCompletion, execVerifyCompletion,
    execPartResetEffect, execWinStage, execWinPlace, execWinShow, execPalStage, execFillStage, execSetCommit,
    execSetDiscard, execSetWithdraw, execSegCreate, execSegWrite, execSegClose, execSegDelete, execQueryStatus,
    execQueryWindow, execQueryPalette, execQuerySegment, execQueryDirectory, execParamSet, execParamQuery,
    execPartReset, execResync, Host.Outcome.next.injEq] at h
  all_goals subst h
  case setApplication => exact s.applyDue_runs
  case assemblyTimeout => exact s.settle_runs
  case inputFrameHead => exact s.settle_runs.trans (State.frameHeadMarker_runs _ _ _ _)
  case absenceExpiry =>
    refine s.settle_runs.trans ?_
    split
    · exact State.absence_runs _
    · exact .refl _
  case generatorLineBegin => exact s.settle_runs.trans (State.generatorBegin_runs _)
  case holdoverLimitReached =>
    refine s.settle_runs.trans ?_
    split
    · exact State.generatorHead_runs _
    · exact .refl _
  case responseEmission =>
    refine s.settle_runs.trans ?_
    split
    · exact State.emitFree_runs _ _ _ _
    · exact .refl _
  case segWriteCompletion =>
    refine s.settle_runs.trans ?_
    unfold State.writeCompletion
    split
    · exact State.completeWrite_runs _ _ _ _ _
    · exact .refl _
  case verifyCompletion =>
    refine s.settle_runs.trans ?_
    unfold State.verifyCompletion
    split
    · exact State.completeVerify_runs _ _ _ _
    · exact .refl _
  case partResetEffect =>
    refine s.settle_runs.trans ?_
    unfold State.resetEvent
    split
    · exact State.resetAtNoSignal_runs _
    · split
      · exact State.emitFree_runs _ _ _ _
      · exact .refl _
  all_goals exact s.settle_runs.trans (State.receive_runs _ _ _ _ _)

/-- What a step does to the picture is a run of the picture. -/
theorem step_runs {s t : State} (h : step s = .next t) : s.Runs t := by
  unfold step at h
  split at h
  · simp only [Host.Outcome.next.injEq] at h
    subst h
    exact s.settle_runs
  · next c rest _ =>
    exact (State.Runs.same (t := { s with pending := rest }) rfl rfl rfl).trans (exec_runs h)

/-- A law of the picture that every move keeps, every step keeps. -/
theorem step_keeps {P : Picture → Prop} (hP : ∀ c cs st b, Picture.Move c cs st b → P ⟨c, cs, st⟩ → P b)
    {s t : State} (h : step s = .next t) (hs : P s.picture) : P t.picture :=
  Picture.Run.keeps hP (step_runs h) hs

end Sys2Proof.Machine
end

