-- ==== Sys2Proof/Laws/LineLoad.lean ====
section
/-! SUPPORT. Laws/LineLoad.lean: the lines that `peakLine` compares are enough: what it answers is the maximum of the
line load over all line coordinates, and the lowest line at which it occurs (R47, R49). -/

namespace Sys2Proof.Machine

/-- A sum over fewer elements is no greater. -/
theorem sum_filter_le {α : Type} (f : α → Nat) (p q : α → Bool) (l : List α) (h : ∀ a ∈ l, p a = true → q a = true) :
    ((l.filter p).map f).sum ≤ ((l.filter q).map f).sum := by
  induction l with
  | nil => exact Nat.le_refl _
  | cons a as ih =>
    have ih := ih fun b hb => h b (by simp [hb])
    have ha := h a (by simp)
    rw [List.filter_cons, List.filter_cons]
    cases hp : p a
    · cases hq : q a
      · simpa using ih
      · simp only [Bool.false_eq_true, if_false, if_true, List.map_cons, List.sum_cons]
        omega
    · rw [if_pos rfl, if_pos (ha hp), List.map_cons, List.map_cons, List.sum_cons, List.sum_cons]
      omega

/-- The lines that `peakLine` compares: line 0, and the first line of each enabled window. -/
def loadLines (wins : List WindowRec) : List Nat := 0 :: (wins.filter (·.enabled)).map (·.originY)

/-- The greatest element of a list that is not empty. -/
theorem exists_greatest (l : List Nat) (h : l ≠ []) : ∃ m ∈ l, ∀ x ∈ l, x ≤ m := by
  induction l with
  | nil => exact absurd rfl h
  | cons a as ih =>
    by_cases has : as = []
    · subst has; exact ⟨a, by simp, by simp⟩
    · obtain ⟨m, hm, hle⟩ := ih has
      by_cases hma : m ≤ a
      · refine ⟨a, by simp, fun x hx => ?_⟩
        simp only [List.mem_cons] at hx
        rcases hx with hx | hx
        · omega
        · exact Nat.le_trans (hle x hx) hma
      · refine ⟨m, by simp [hm], fun x hx => ?_⟩
        simp only [List.mem_cons] at hx
        rcases hx with hx | hx
        · omega
        · exact hle x hx

/-- The load at a line is no greater than the load at one of the compared lines at or before it. -/
theorem lineLoad_le_loadLine (wins : List WindowRec) (y : Nat) :
    ∃ z ∈ loadLines wins, z ≤ y ∧ lineLoad wins y ≤ lineLoad wins z := by
  by_cases hc : wins.filter (fun w => w.enabled && w.coversLine y) = []
  · refine ⟨0, by simp [loadLines], Nat.zero_le y, ?_⟩
    unfold lineLoad
    rw [hc]
    exact Nat.zero_le _
  · obtain ⟨m, hm, hle⟩ := exists_greatest
      ((wins.filter fun w => w.enabled && w.coversLine y).map (·.originY)) (by simpa using hc)
    simp only [List.mem_map, List.mem_filter, Bool.and_eq_true] at hm
    obtain ⟨w, ⟨hw, hon, hcov⟩, rfl⟩ := hm
    have hspan (v : WindowRec) (y : Nat) : v.coversLine y = true ↔
        v.originY ≤ y ∧ y < v.originY + v.srcHeight * v.vScale.factor := by
      simp [WindowRec.coversLine]
    refine ⟨w.originY, ?_, ((hspan w y).mp hcov).1, ?_⟩
    · simp only [loadLines, List.mem_cons, List.mem_map, List.mem_filter]
      exact Or.inr ⟨w, ⟨hw, hon⟩, rfl⟩
    · unfold lineLoad
      refine sum_filter_le _ _ _ _ fun v hv hp => ?_
      simp only [Bool.and_eq_true] at hp ⊢
      refine ⟨hp.1, (hspan v _).mpr ?_⟩
      have hvy := (hspan v y).mp hp.2
      have hvw : v.originY ≤ w.originY := hle v.originY (by
        simp only [List.mem_map, List.mem_filter, Bool.and_eq_true]
        exact ⟨v, ⟨hv, hp.1, hp.2⟩, rfl⟩)
      have := ((hspan w y).mp hcov).1
      omega

/-- The best of a list of (line, load) pairs: one of them, with no greater load and no equal load at a lower line. -/
theorem foldl_betterLine (l : List (Nat × Nat)) (a : Nat × Nat) :
    l.foldl betterLine a ∈ a :: l ∧ ∀ c ∈ a :: l,
      c.2 < (l.foldl betterLine a).2 ∨ (c.2 = (l.foldl betterLine a).2 ∧ (l.foldl betterLine a).1 ≤ c.1) := by
  induction l generalizing a with
  | nil => simp
  | cons b bs ih =>
    rw [List.foldl_cons]
    obtain ⟨hmem, hbest⟩ := ih (betterLine a b)
    have hbetter : betterLine a b = a ∨ betterLine a b = b := by
      unfold betterLine
      split
      · exact Or.inr rfl
      · exact Or.inl rfl
    have hfirst := hbest (betterLine a b) (by simp)
    have hcmp : (a.2 < (betterLine a b).2 ∨ (a.2 = (betterLine a b).2 ∧ (betterLine a b).1 ≤ a.1)) ∧
        (b.2 < (betterLine a b).2 ∨ (b.2 = (betterLine a b).2 ∧ (betterLine a b).1 ≤ b.1)) := by
      unfold betterLine
      split
      · next h => exact ⟨by omega, by omega⟩
      · next h => exact ⟨by omega, by omega⟩
    constructor
    · simp only [List.mem_cons] at hmem ⊢
      rcases hmem with h | h
      · rcases hbetter with h' | h'
        · left; rw [h, h']
        · right; left; rw [h, h']
      · right; right; exact h
    · intro c hc
      simp only [List.mem_cons] at hc
      rcases hc with rfl | rfl | hc
      · omega
      · omega
      · exact hbest c (by simp [hc])

/-- What `peakLine` answers: the maximum of the line load over all lines, and the lowest line at which it occurs. -/
theorem peakLine_spec (wins : List WindowRec) :
    lineLoad wins (peakLine wins).1 = (peakLine wins).2 ∧ (∀ y, lineLoad wins y ≤ (peakLine wins).2) ∧
      ∀ y < (peakLine wins).1, lineLoad wins y < (peakLine wins).2 := by
  obtain ⟨hmem, hbest⟩ := foldl_betterLine
    ((wins.filter (·.enabled)).map fun w => (w.originY, lineLoad wins w.originY)) (0, lineLoad wins 0)
  rw [show List.foldl betterLine (0, lineLoad wins 0) _ = peakLine wins from rfl] at hmem hbest
  have hall (z : Nat) (hz : z ∈ loadLines wins) :
      lineLoad wins z < (peakLine wins).2 ∨ (lineLoad wins z = (peakLine wins).2 ∧ (peakLine wins).1 ≤ z) := by
    refine hbest (z, lineLoad wins z) ?_
    simp only [loadLines, List.mem_cons, List.mem_map] at hz
    rcases hz with rfl | ⟨w, hw, rfl⟩
    · simp
    · simp only [List.mem_cons, List.mem_map]
      exact Or.inr ⟨w, hw, rfl⟩
  refine ⟨?_, ?_, ?_⟩
  · simp only [List.mem_cons, List.mem_map] at hmem
    rcases hmem with h | ⟨w, _, h⟩
    · rw [h]
    · rw [← h]
  · intro y
    obtain ⟨z, hz, _, hle⟩ := lineLoad_le_loadLine wins y
    have := hall z hz
    omega
  · intro y hy
    obtain ⟨z, hz, hzy, hle⟩ := lineLoad_le_loadLine wins y
    have := hall z hz
    omega

end Sys2Proof.Machine
end

