-- ==== Sys2Proof/Laws/Lines.lean ====
section
/-! SUPPORT. Laws/Lines.lean: what the Channel Unit and a relayed line leave alone on the inbound side: the Timing
Unit's items, the frame in progress, and the inbound management range. -/

namespace Sys2Proof.Machine

/-- Two states agree on the Timing Unit, the link and the inbound management range. -/
def State.SameLink (s t : State) : Prop := t.timing = s.timing ∧ t.link = s.link ∧ t.pkt.inRange = s.pkt.inRange

theorem State.SameLink.refl (s : State) : s.SameLink s := ⟨rfl, rfl, rfl⟩

theorem State.SameLink.trans {s t u : State} (h : s.SameLink t) (k : t.SameLink u) : s.SameLink u :=
  ⟨k.1.trans h.1, k.2.1.trans h.2.1, k.2.2.trans h.2.2⟩

/-- An operation that keeps the link, the Timing Unit and the packet unit whole. -/
theorem State.SameLink.of {s t : State} (ht : t.timing = s.timing) (hl : t.link = s.link) (hp : t.pkt = s.pkt) :
    s.SameLink t :=
  ⟨ht, hl, congrArg PacketUnit.inRange hp⟩

/-! ### The response queue -/

theorem State.offer_sameLink (s : State) (packet : List Byte) : s.SameLink (s.offer packet) := by
  unfold State.offer
  split <;> exact ⟨rfl, rfl, rfl⟩

theorem State.offerNotice_sameLink (s : State) (k : NoticeKind) (data : List Byte) :
    s.SameLink (s.offerNotice k data) := by
  unfold State.offerNotice
  split <;> (try split) <;> exact ⟨rfl, rfl, rfl⟩

theorem State.refuseFragment_sameLink (s : State) (f : Fragment) (code : Code) (payload : List Byte) :
    s.SameLink (s.refuseFragment f code payload) :=
  s.offer_sameLink _

/-! ### Messages -/

theorem State.dispatch_sameLink (s : State) (k : Kind) (ch : Chan) (p : List Byte) :
    s.SameLink (s.dispatch k ch p).1 := by
  cases k <;> exact .of (by simp [State.dispatch]) (by simp [State.dispatch]) (by simp [State.dispatch])

theorem State.carryOut_sameLink (s : State) (ch : Chan) (seq : SeqNo) (kind : Byte) (reply : Reply) :
    s.SameLink (s.carryOut ch seq kind reply) := by
  cases reply <;> exact ⟨rfl, rfl, rfl⟩

theorem State.judge_sameLink (s : State) (ch : Chan) (seq : SeqNo) (kind : Byte) (p : List Byte) :
    s.SameLink (s.judge ch seq kind p) := by
  unfold State.judge
  split
  · split <;> exact ⟨rfl, rfl, rfl⟩
  · split
    · next k _ =>
      exact ((s.advance ch seq).dispatch_sameLink k ch p).trans (State.carryOut_sameLink _ _ _ _ _)
    · exact .refl s

theorem State.complete_sameLink (s : State) (ch : Chan) (seq : SeqNo) (kind : Byte) (p : List Byte) :
    s.SameLink (s.complete ch seq kind p) := by
  unfold State.complete
  simp only []
  split
  · exact ((s.dropAssembly ch).reserve ch).judge_sameLink ch seq kind p
  · exact ⟨rfl, rfl, rfl⟩

/-! ### Fragments -/

theorem State.duplicate_sameLink (s : State) (f : Fragment) : s.SameLink (s.duplicate f) := by
  unfold State.duplicate
  split
  · exact s.offer_sameLink _
  · exact .refl s

theorem State.outOfSequence_sameLink (s : State) (f : Fragment) : s.SameLink (s.outOfSequence f) := by
  unfold State.outOfSequence
  simp only []
  split
  · split
    · exact s.refuseFragment_sameLink _ _ _
    · exact .refl s
  · exact (s.setChan f.ch { s.chan f.ch with state := .halted }).refuseFragment_sameLink _ _ _

theorem State.idleFragment_sameLink (s : State) (f : Fragment) : s.SameLink (s.idleFragment f) := by
  unfold State.idleFragment
  simp only []
  split
  · exact s.duplicate_sameLink f
  · split
    · split
      · split
        · exact s.complete_sameLink _ _ _ _
        · split
          · exact (s.dropAssembly f.ch).refuseFragment_sameLink _ _ _
          · exact ⟨rfl, rfl, rfl⟩
      · exact .refl s
    · exact s.outOfSequence_sameLink f

theorem State.assemblingFragment_sameLink (s : State) (f : Fragment) (a : Assembly) :
    s.SameLink (s.assemblingFragment f a) := by
  unfold State.assemblingFragment
  split
  · split
    · split
      · exact (s.dropAssembly f.ch).refuseFragment_sameLink _ _ _
      · split
        · exact s.complete_sameLink _ _ _ _
        · exact ⟨rfl, rfl, rfl⟩
    · split
      · exact .refl s
      · exact (s.dropAssembly f.ch).refuseFragment_sameLink _ _ _
  · exact (s.dropAssembly f.ch).idleFragment_sameLink f

theorem State.judgeResync_sameLink (s : State) (f : Fragment) : s.SameLink (s.judgeResync f) := by
  unfold State.judgeResync
  split <;> exact ⟨rfl, rfl, rfl⟩

theorem State.resyncFragment_sameLink (s : State) (f : Fragment) : s.SameLink (s.resyncFragment f) := by
  unfold State.resyncFragment
  split
  · exact .refl s
  · split
    · exact s.refuseFragment_sameLink _ _ _
    · split
      · exact (s.reserve f.ch).judgeResync_sameLink f
      · exact ⟨rfl, rfl, rfl⟩

/-- A fragment handed to the Channel Unit changes nothing of the Timing Unit, the link or the inbound range. -/
theorem State.fragment_sameLink (s : State) (f : Fragment) : s.SameLink (s.fragment f) := by
  unfold State.fragment
  split
  · exact s.resyncFragment_sameLink f
  · split
    · exact s.assemblingFragment_sameLink f _
    · unfold State.executingFragment
      simp only []
      split
      · exact .refl s
      · split
        · exact s.refuseFragment_sameLink _ _ _
        · exact .refl s
    · unfold State.haltedFragment
      split
      · exact s.refuseFragment_sameLink _ _ _
      · exact .refl s
    · exact s.idleFragment_sameLink f

/-- The same of the packet of a completed line, where there is one. -/
theorem State.handOn_sameLink (s : State) (f : Option Fragment) : s.SameLink (s.handOn f) := by
  cases f with
  | none => exact .refl s
  | some f => exact s.fragment_sameLink f

/-! ### An open head -/

theorem State.activeRelease_sameLink (s : State) (f : FrameNo) (id : Nat) : s.SameLink (s.activeRelease f id) := by
  unfold State.activeRelease
  split
  · exact .refl s
  · split
    · next g _ _ =>
      exact (({ s with store := s.store.free g } : State).raise .segmentReleased).offerNotice_sameLink _ _
    · exact ⟨rfl, rfl, rfl⟩

theorem State.activeMove_sameLink (s : State) (f : FrameNo) (a b : Option Nat) : s.SameLink (s.activeMove f a b) := by
  unfold State.activeMove
  split
  · exact .refl s
  · cases a with
    | none =>
      cases b with
      | none => exact .refl s
      | some id => exact ⟨rfl, rfl, rfl⟩
    | some old =>
      have h := s.activeRelease_sameLink f old
      cases b with
      | none => exact h
      | some id => exact h.trans ⟨rfl, rfl, rfl⟩

theorem State.activeMoves_sameLink (s : State) (f : FrameNo) (before after : List (Option Nat)) :
    s.SameLink (s.activeMoves f before after) := by
  unfold State.activeMoves
  generalize before.zip after = l
  induction l generalizing s with
  | nil => exact .refl s
  | cons m ms ih => exact (s.activeMove_sameLink f m.1 m.2).trans (ih _)

theorem State.reportApplied_sameLink (s : State) (f : FrameNo) (set : Scheduled) :
    s.SameLink (s.reportApplied f set) := by
  unfold State.reportApplied
  simp only []
  have h := s.offerNotice_sameLink .applied (be2 f.toNat ++ set.target.bytes ++ [byte set.edits.length])
  split
  · exact h
  · split
    · exact h
    · exact h.trans (State.offerNotice_sameLink _ _ _)

theorem State.applyDue_sameLink (s : State) : s.SameLink s.applyDue := by
  unfold State.applyDue
  split
  · next f set _ =>
    have h1 : s.SameLink { s with comp := s.comp.apply set.edits, store := s.store.releaseStaged set.edits } :=
      ⟨rfl, rfl, rfl⟩
    have h2 := h1.trans (State.activeMoves_sameLink _ f (s.comp.wins.map (·.segment))
      ((s.comp.apply set.edits).wins.map (·.segment)))
    have h3 (v : State) : v.SameLink { v with cset := { v.cset with scheduled := none, lastApp := some f } } :=
      ⟨rfl, rfl, rfl⟩
    exact (h2.trans (h3 _)).trans (State.reportApplied_sameLink _ f set)
  · exact .refl s

theorem State.timeOut_sameLink (s : State) (ch : Chan) : s.SameLink (s.timeOut ch) := by
  unfold State.timeOut
  split
  · split
    · exact ((s.dropAssembly ch).raise .assemblyTimeout).offerNotice_sameLink _ _
    · exact .refl s
  · exact .refl s

/-- The rest of an open head changes nothing of the Timing Unit, the link or the inbound range. -/
theorem State.settle_sameLink (s : State) : s.SameLink s.settle := by
  unfold State.settle
  split
  · have h := ((((s.applyDue_sameLink.trans (State.timeOut_sameLink _ 0)).trans (State.timeOut_sameLink _ 1)).trans
      (State.timeOut_sameLink _ 2)).trans (State.timeOut_sameLink _ 3))
    exact h.trans ⟨rfl, rfl, rfl⟩
  · exact .refl s

/-! ### Relayed lines -/

/-- Two states agree on the lock state, the frame in progress and the inbound management range. -/
def State.SameInput (s t : State) : Prop :=
  t.timing.lock = s.timing.lock ∧ t.link.inFrame = s.link.inFrame ∧ t.pkt.inRange = s.pkt.inRange

theorem State.SameInput.trans {s t u : State} (h : s.SameInput t) (k : t.SameInput u) : s.SameInput u :=
  ⟨k.1.trans h.1, k.2.1.trans h.2.1, k.2.2.trans h.2.2⟩

theorem State.SameLink.sameInput {s t : State} (h : s.SameLink t) : s.SameInput t :=
  ⟨congrArg Timing.lock h.1, congrArg Link.inFrame h.2.1, h.2.2⟩

theorem State.resetEffect_sameLink (s : State) (path : ResetPath) : s.SameLink (s.resetEffect path) := by
  unfold State.resetEffect
  split <;> exact ⟨rfl, rfl, rfl⟩

/-- A free line's emission, and a reset's effect with it, leave the inbound frame alone. -/
theorem State.emitFree_sameInput (s : State) (width : Nat) (source : LineSource) (offset : Option Nat) :
    s.SameInput (s.emitFree width source offset) := by
  have h : s.SameLink (s.fixFree width).1 := by
    unfold State.fixFree
    split
    · exact .refl s
    · split
      · simp only []
        split
        · next rest _ _ _ =>
          exact ({ s with pkt := { s.pkt with filled := rest } } : State).resetEffect_sameLink .emission
        · exact ⟨rfl, rfl, rfl⟩
      · exact .refl s
  exact h.sameInput.trans ⟨rfl, rfl, rfl⟩

/-- Where the bytes of R98 are not an odd-length packet's but for its last byte, they are all that is examined. -/
theorem packetStream_of_whole {data : List DataWord} (h : lacksLastByte (lineBytes data) = false) :
    packetStream data = lineBytes data := by
  simp [packetStream, h]

/-- Where they are, the byte of R132 follows them. -/
theorem packetStream_of_odd {data : List DataWord} (h : lacksLastByte (lineBytes data) = true) :
    packetStream data = lineBytes data ++ lastOddByte data := by
  simp [packetStream, h]

theorem State.flagPacket_sameLink (s : State) (bytes : List Byte) : s.SameLink (s.flagPacket bytes) :=
  .of (by simp) (by simp) (by simp)

theorem State.relayManaged_sameInput (s : State) (d : Disposition) (outside : Bool) (data : List DataWord) :
    s.SameInput (s.relayManaged d outside data) := by
  unfold State.relayManaged
  split
  · exact s.emitFree_sameInput _ _ _
  · exact s.emitFree_sameInput _ _ _
  all_goals exact ⟨rfl, rfl, rfl⟩

/-- A relayed line leaves the lock state, the inbound frame and the inbound range alone. -/
theorem State.relay_sameInput (s : State) (fr : InFrame) (data : List DataWord) : s.SameInput (s.relay fr data).1 := by
  unfold State.relay
  split
  · exact ⟨rfl, rfl, rfl⟩
  · unfold State.relayBlank
    split
    · exact (s.flagPacket_sameLink _).sameInput.trans (State.relayManaged_sameInput _ _ _ _)
    · exact ⟨rfl, rfl, rfl⟩
  · unfold State.relayActive
    split
    · exact ⟨rfl, rfl, rfl⟩
    · simp only []
      split <;> exact ⟨rfl, rfl, rfl⟩
  · exact ⟨rfl, rfl, rfl⟩

/-- A line examined in REJOINING is not relayed either (R117, R133). -/
theorem State.examineOnly_sameInput (s : State) (fr : InFrame) (data : List DataWord) :
    s.SameInput (s.examineOnly fr data).1 := by
  unfold State.examineOnly
  split
  · exact (s.flagPacket_sameLink _).sameInput
  · exact ⟨rfl, rfl, rfl⟩

/-- A line completed in a state that follows the input: the frame in progress gains the line, the lock state and the
inbound range stay (R96). -/
theorem State.completeLine_spec (s : State) (data : List DataWord) (fr : InFrame) (hi : s.link.inFrame = some fr)
    (hl : s.timing.lock = .acquiring ∨ s.timing.lock = .locked ∨ s.timing.lock = .rejoining) :
    ({ s with link := { s.link with inFrame := some (fr.withLine data) } } : State).SameInput
      (s.completeLine data).1 := by
  unfold State.completeLine
  simp only [hi]
  split
  · exact State.relay_sameInput _ fr data
  · exact State.relay_sameInput _ fr data
  · exact State.examineOnly_sameInput _ fr data
  · next h => rw [h] at hl; rcases hl with h | h | h <;> exact absurd h (by decide)
  · next h => rw [h] at hl; rcases hl with h | h | h <;> exact absurd h (by decide)

/-- A frame assessed leaves the frame in progress and the inbound range alone (R108, R109). -/
theorem State.assess_inbound (s : State) (shape : Option FrameShape) :
    (s.assess shape).link.inFrame = s.link.inFrame ∧ (s.assess shape).pkt.inRange = s.pkt.inRange := by
  unfold State.assess
  simp only []
  split
  · unfold State.enterLocked State.enter State.reportLock
    exact ⟨congrArg Link.inFrame (State.offerNotice_sameLink _ _ _).2.1, (State.offerNotice_sameLink _ _ _).2.2⟩
  · exact ⟨rfl, rfl⟩

end Sys2Proof.Machine
end

