-- ==== Sys2Proof/Laws/Memory.lean ====
section
/-! SUPPORT. Laws/Memory.lean: the bitmap memory: every operation keeps the canonical form, and what a byte reads as
after each. -/

namespace Sys2Proof.Machine

/-! ### The canonical form -/

theorem Memory.wf_cons (c : Host.Cell) (cs : Memory) :
    Memory.wf (c :: cs) = true ↔ c.2 ≠ 0 ∧ (∀ d ∈ cs, c.1 < d.1) ∧ Memory.wf cs = true := by
  simp [Memory.wf, and_assoc]

theorem Memory.mem_write {m : Memory} {a : Nat} {v : Byte} {d : Host.Cell} (h : d ∈ Memory.write m a v) :
    d ∈ m ∨ d.1 = a := by
  induction m with
  | nil =>
    unfold Memory.write at h
    split at h
    · simp at h
    · right; simp at h; rw [h]
  | cons c cs ih =>
    unfold Memory.write at h
    split at h
    · split at h
      · left; exact h
      · simp only [List.mem_cons] at h ⊢
        rcases h with h | h | h
        · right; rw [h]
        · left; left; exact h
        · left; right; exact h
    · split at h
      · split at h
        · left; simp [h]
        · simp only [List.mem_cons] at h ⊢
          rcases h with h | h
          · right; rw [h]
          · left; right; exact h
      · simp only [List.mem_cons] at h ⊢
        rcases h with h | h
        · left; left; exact h
        · rcases ih h with h | h
          · left; right; exact h
          · right; exact h

/-- A write keeps the canonical form. -/
theorem Memory.wf_write {m : Memory} (a : Nat) (v : Byte) (h : m.wf = true) : (Memory.write m a v).wf = true := by
  induction m with
  | nil =>
    unfold Memory.write
    split
    · rfl
    · next hv => exact (Memory.wf_cons _ _).mpr ⟨hv, by simp, rfl⟩
  | cons c cs ih =>
    rw [Memory.wf_cons] at h
    obtain ⟨hc, hlt, hw⟩ := h
    unfold Memory.write
    split
    · next hac =>
      split
      · rw [Memory.wf_cons]; exact ⟨hc, hlt, hw⟩
      · next hv =>
        rw [Memory.wf_cons]
        refine ⟨hv, ?_, (Memory.wf_cons c cs).mpr ⟨hc, hlt, hw⟩⟩
        intro d hd
        simp only [List.mem_cons] at hd
        rcases hd with hd | hd
        · rw [hd]; exact hac
        · exact Nat.lt_trans hac (hlt d hd)
    · next hac =>
      split
      · next hEq =>
        split
        · exact hw
        · next hv =>
          rw [Memory.wf_cons]
          exact ⟨hv, by intro d hd; rw [hEq]; exact hlt d hd, hw⟩
      · next hne =>
        rw [Memory.wf_cons]
        refine ⟨hc, ?_, ih hw⟩
        intro d hd
        rcases Memory.mem_write hd with hd | hd
        · exact hlt d hd
        · rw [hd]; omega

theorem Memory.wf_filter {m : Memory} (f : Host.Cell → Bool) (h : m.wf = true) : Memory.wf (m.filter f) = true := by
  induction m with
  | nil => rfl
  | cons c cs ih =>
    rw [Memory.wf_cons] at h
    obtain ⟨hc, hlt, hw⟩ := h
    rw [List.filter_cons]
    split
    · rw [Memory.wf_cons]
      exact ⟨hc, fun d hd => hlt d (List.mem_filter.mp hd).1, ih hw⟩
    · exact ih hw

/-- Zeroing a block keeps the canonical form. -/
theorem Memory.wf_zeroBlock {m : Memory} (b : Nat) (h : m.wf = true) : (m.zeroBlock b).wf = true :=
  Memory.wf_filter _ h

/-- Zeroing several blocks keeps the canonical form. -/
theorem Memory.wf_zeroBlocks (bs : List Nat) {m : Memory} (h : m.wf = true) :
    Memory.wf (bs.foldl Memory.zeroBlock m) = true := by
  induction bs generalizing m with
  | nil => exact h
  | cons b bs ih => exact ih (Memory.wf_zeroBlock b h)

theorem segWriteByte_wf {m : Memory} (blocks : List Nat) (a : Nat) (v : Byte) (h : m.wf = true) :
    (segWriteByte m blocks a v).wf = true := by
  unfold segWriteByte
  split
  · exact Memory.wf_write _ _ h
  · exact h

/-- Writing a segment's bytes keeps the canonical form. -/
theorem segWriteBytes_wf (blocks : List Nat) (vs : List Byte) {m : Memory} (a : Nat) (h : m.wf = true) :
    (segWriteBytes m blocks a vs).wf = true := by
  induction vs generalizing m a with
  | nil => exact h
  | cons v vs ih => exact ih (a + 1) (segWriteByte_wf blocks a v h)

/-- A completed write keeps the canonical form. -/
theorem Store.land_wf (st : Store) (id offset : Nat) (data : List Byte) (h : st.mem.wf = true) :
    (st.land id offset data).mem.wf = true := by
  unfold Store.land
  split
  · exact segWriteBytes_wf _ _ _ h
  · exact h

/-- Creating a segment keeps the canonical form. -/
theorem Store.create_wf (st : Store) (id length : Nat) (h : st.mem.wf = true) :
    (st.create id length).mem.wf = true := by
  rw [Store.create_mem]; exact Memory.wf_zeroBlocks _ h

/-- Reset memory has the canonical form. -/
theorem State.reset_wf : State.reset.store.mem.wf = true := rfl

/-! ### Reading one byte -/

@[simp] theorem Memory.read_nil (a : Nat) : Memory.read [] a = 0 := rfl

theorem Memory.read_cons (c : Host.Cell) (cs : Memory) (a : Nat) :
    Memory.read (c :: cs) a = if c.1 = a then c.2 else Memory.read cs a := by
  unfold Memory.read
  rw [List.find?_cons]
  by_cases h : c.1 = a
  · simp [h]
  · have hb : (c.1 == a) = false := by simp [h]
    simp [hb, h]

theorem Memory.read_of_lt {m : Memory} {a : Nat} (h : ∀ d ∈ m, a < d.1) : m.read a = 0 := by
  induction m with
  | nil => rfl
  | cons c cs ih =>
    have hc : a < c.1 := h c (by simp)
    rw [Memory.read_cons, if_neg (by omega)]
    exact ih fun d hd => h d (by simp [hd])

/-- The byte written reads as the value written. -/
theorem Memory.read_write_same {m : Memory} (a : Nat) (v : Byte) (h : m.wf = true) :
    (Memory.write m a v).read a = v := by
  induction m with
  | nil =>
    unfold Memory.write
    split
    · next hv => rw [hv]; rfl
    · simp [Memory.read_cons]
  | cons c cs ih =>
    rw [Memory.wf_cons] at h
    obtain ⟨hc, hlt, hw⟩ := h
    unfold Memory.write
    split
    · next hac =>
      split
      · next hv =>
        rw [hv]
        exact Memory.read_of_lt (by
          intro d hd
          simp only [List.mem_cons] at hd
          rcases hd with hd | hd
          · rw [hd]; exact hac
          · exact Nat.lt_trans hac (hlt d hd))
      · rw [Memory.read_cons, if_pos rfl]
    · split
      · next hEq =>
        split
        · next hv =>
          rw [hv]
          exact Memory.read_of_lt (by intro d hd; rw [hEq]; exact hlt d hd)
        · rw [Memory.read_cons, if_pos rfl]
      · next hne =>
        rw [Memory.read_cons, if_neg (by omega)]
        exact ih hw

/-- Every other byte reads as before a write. -/
theorem Memory.read_write_other (m : Memory) {a b : Nat} (v : Byte) (h : b ≠ a) :
    (Memory.write m a v).read b = m.read b := by
  induction m with
  | nil =>
    unfold Memory.write
    split
    · rfl
    · rw [Memory.read_cons, if_neg (by simpa using h.symm)]
  | cons c cs ih =>
    unfold Memory.write
    split
    · split
      · rfl
      · rw [Memory.read_cons, if_neg (by simpa using h.symm)]
    · split
      · next hEq =>
        split
        · rw [Memory.read_cons, if_neg (by omega)]
        · rw [Memory.read_cons, if_neg (by simpa using h.symm), Memory.read_cons, if_neg (by omega)]
      · rw [Memory.read_cons, Memory.read_cons, ih]

/-- After zeroing block `b`, its bytes read 0 and all others read as before. -/
theorem Memory.read_zeroBlock (m : Memory) (b a : Nat) :
    (m.zeroBlock b).read a = if a / Config.blockBytes = b then 0 else m.read a := by
  induction m with
  | nil => unfold Memory.zeroBlock; simp
  | cons c cs ih =>
    unfold Memory.zeroBlock at ih ⊢
    rw [List.filter_cons, Memory.read_cons]
    by_cases hc : c.1 / Config.blockBytes = b
    · have hb : (c.1 / Config.blockBytes != b) = false := by simp [hc]
      rw [if_neg (by simp [hb]), ih]
      by_cases ha : c.1 = a
      · subst ha; simp [hc]
      · simp [ha]
    · have hb : (c.1 / Config.blockBytes != b) = true := by simp [hc]
      rw [if_pos hb, Memory.read_cons, ih]
      by_cases ha : c.1 = a
      · subst ha; simp [hc]
      · simp [ha]

/-- After zeroing several blocks, their bytes read 0 and all others read as before. -/
theorem Memory.read_zeroBlocks (bs : List Nat) (m : Memory) (a : Nat) :
    Memory.read (bs.foldl Memory.zeroBlock m) a = if a / Config.blockBytes ∈ bs then 0 else m.read a := by
  induction bs generalizing m with
  | nil => simp
  | cons b bs ih =>
    rw [List.foldl_cons, ih, Memory.read_zeroBlock]
    by_cases h : a / Config.blockBytes ∈ bs
    · simp [h]
    · by_cases hb : a / Config.blockBytes = b
      · simp [hb]
      · simp [h, hb]

/-- A write to a segment changes no byte at an address that its offsets do not reach. -/
theorem segWriteBytes_read_other (blocks : List Nat) (vs : List Byte) (m : Memory) (a b : Nat)
    (h : ∀ i < vs.length, segAddr blocks (a + i) ≠ some b) :
    (segWriteBytes m blocks a vs).read b = m.read b := by
  induction vs generalizing m a with
  | nil => rfl
  | cons v vs ih =>
    unfold segWriteBytes
    rw [ih]
    · have h0 := h 0 (by simp)
      unfold segWriteByte
      split
      · next addr hA =>
        rw [Nat.add_zero] at h0
        exact Memory.read_write_other _ _ (fun hb => h0 (by rw [hA, hb]))
      · rfl
    · intro i hi
      have := h (i + 1) (by simp; omega)
      rwa [show a + (i + 1) = a + 1 + i by omega] at this

end Sys2Proof.Machine
end

