-- ==== Sys2Proof/WellFormed.lean ====
section
/-! DEFINITION. WellFormed.lean: which commands are events of the link or messages an agent can send. The machine gives
every command a meaning; these checks say for which of them the data words and the payload are what a link or an agent
can carry (log 16, log 25). -/

namespace Sys2Proof

/-- The three words that open a line marker in both lanes (R96). -/
def markerOpening : List DataWord :=
  [⟨0x3FF, 0x3FF⟩, ⟨0x000, 0x000⟩, ⟨0x000, 0x000⟩]

/-- The Link Receiver recognises a marker at the start of these words: the opening in both lanes at the same word
positions, and a fourth word, the type word, with the same value in both lanes (R96). -/
def markerHere (ws : List DataWord) : Bool :=
  ws.take 3 == markerOpening && ws[3]?.any fun w => w.luma == w.chroma

/-- A marker is recognised at one of the first `n` word positions. -/
def markerWithin : Nat → List DataWord → Bool
  | 0, _ => false
  | n + 1, ws => markerHere ws || markerWithin n ws.tail

/-- The data words of a line hold no marker: followed by the marker that completes the line, no earlier marker is
recognised (R96: a line runs from its marker to the next marker). Markers are looked for from the word after the line's
own type word on: a type word 0x3FF before words 0x000, 0x000 opens no further marker that shares it, by the model's
choice (log 30). -/
def markerFree (data : List DataWord) : Bool :=
  !markerWithin data.length (data ++ markerOpening ++ [⟨0x2B4, 0x2B4⟩])

/-- The type word of a FRAME_HEAD line (R96). -/
def frameHeadWord : Lane := 0x26C

/-- A message's payload is 0 to 8192 bytes long (R162). -/
def payloadFits (payload : List Byte) : Bool :=
  payload.length ≤ 8192

/-- The command is one the link or an agent can carry. -/
def Instr.wellFormed : Instr → Bool
  | .hardReset _ => true
  | .lineMarker typeWord data _ => typeWord != frameHeadWord && markerFree data
  | .inputFrameHead data _ _ => markerFree data
  | .absenceExpiry _ => true
  | .generatorLineBegin => true
  | .holdoverLimitReached => true
  | .setApplication => true
  | .assemblyTimeout => true
  | .responseEmission _ => true
  | .winStage _ _ p => payloadFits p
  | .winPlace _ _ p => payloadFits p
  | .winShow _ _ p => payloadFits p
  | .palStage _ _ p => payloadFits p
  | .fillStage _ _ p => payloadFits p
  | .setCommit _ _ p => payloadFits p
  | .setDiscard _ _ p => payloadFits p
  | .setWithdraw _ _ p => payloadFits p
  | .segCreate _ _ p => payloadFits p
  | .segWrite _ _ p => payloadFits p
  | .segClose _ _ p => payloadFits p
  | .segDelete _ _ p => payloadFits p
  | .queryStatus _ _ p => payloadFits p
  | .queryWindow _ _ p => payloadFits p
  | .queryPalette _ _ p => payloadFits p
  | .querySegment _ _ p => payloadFits p
  | .queryDirectory _ _ p => payloadFits p
  | .paramSet _ _ p => payloadFits p
  | .paramQuery _ _ p => payloadFits p
  | .partReset _ _ p => payloadFits p
  | .resync _ _ p => payloadFits p
  | .segWriteCompletion => true
  | .verifyCompletion => true
  | .partResetEffect _ => true

end Sys2Proof
end

