-- ==== Sys2Proof/Tests/Slice0.lean ====
section
/-! SUPPORT. Tests/Slice0.lean: the checks of WellFormed refuse ill-formed terms; the spec's worked numbers; small
tests of the commands; and for every statement with hypotheses a witness that meets them. -/

namespace Sys2Proof.Tests

open Sys2Proof.Machine

-- Each kernel evaluation here waits for all before it; in order, none holds a thread while it waits.
set_option Elab.async false

/-! ### Small states -/

/-- A frame of three lines, one of them ACTIVE. -/
def shape : FrameShape :=
  { geometry := { width := 720, activeLines := 1, totalLines := 3 }, pattern := [.frameHead, .blank, .active],
    period := 3000 }

/-- A segment record with blocks and a state; no counts. -/
def seg (id : Nat) (state : SegState) (length : Nat) (blocks : List Nat) : Segment :=
  { id := id, state := state, length := length, blocks := blocks, active := 0, staged := 0, queued := 0, check := none }

/-- A window record as after a reset, enabled, with a segment. -/
def win (segment : Nat) (priority : Fin 8) (width y : Nat) : WindowRec :=
  { WindowRec.reset 0 with enabled := true, segment := some segment, priority := priority, srcWidth := width, originY := y }

/-- A slot that is not shown. -/
def slot (w : WindowRec) : WinSlot := { win := w, phase := 0, shown := false }

/-- One segment in each state. -/
def segments : List Segment :=
  [seg 1 .loading 100 [5], { seg 2 .verifying 3 [6] with queued := 1 }, seg 3 .ready 600 [7, 8],
   { seg 4 .retiring 100 [9] with active := 1 }]

/-- A LOCKED part in frame 5 with four free blocks and one segment in each state. -/
def base : State :=
  { State.reset with
    timing := { Timing.reset with lock := .locked, recorded := some shape, frame := some 5, absence := true }
    comp := { slots := [slot (win 4 1 8 0), slot (WindowRec.reset 1)], palettes := [[⟨900, 300, 700, 12⟩]],
              fill := Colour.reset, latch := .locked }
    store := { mem := [(2560, 7)], freeList := [0, 1, 2, 3], dir := segments, queue := [] } }

/-- The same part with a response queue that has no room. -/
def full : State :=
  { base with pkt := { base.pkt with filled := List.replicate 16 ⟨[1], false, 0⟩ } }

/-- The same part with a head open. -/
def opened : State := { base with headOpen := true }

/-- The channel record of channel 1 replaced. -/
def onCh1 (r : ChanRec) : State := { base with chn := { base.chn with c1 := r } }

/-- Channel 0 and channel 1 after one message: last sequence 0 with a cached response. -/
def answeredOnce : ChanRec := { state := .idle, last := 0, assembly := none, cache := some [1, 2] }

/-- A frame in progress whose open line has this type. -/
def frameWith (t : LineType) : InFrame :=
  { headless := false, lines := [(.frameHead, 2)], openType := t, decodable := true, refClks := 10 }

/-- The part following a frame whose open line has this type. -/
def following (t : LineType) : State := { base with link := { base.link with inFrame := some (frameWith t) } }

/-- Two empty words. -/
def twoWords : List DataWord := [⟨0x040, 0x200⟩, ⟨0x040, 0x200⟩]

/-- A SET_DISCARD to an address, sequence 0: header and CRC. -/
def discardPacket (address : Byte) : List Byte :=
  let body : List Byte := [0xC3, 0x10, address, 0x80, 0, 9, 0, 0, 0, 0, 0, 0]
  body ++ be2 (crc16 body).toNat

/-- The words of a line that carries that packet. -/
def discardLine (address : Byte) : List DataWord := packWords (discardPacket address)

/-- A part two faults deep in LOCKED, with an edit in its open set, that follows a management line. -/
def faulting : State :=
  { following .blank with
    timing := { base.timing with faultCount := 2 }
    cset := { base.cset with openSet := [.winShow 0 false] } }

/-- The part in REJOINING, following a frame whose open line has this type. -/
def rejoining (t : LineType) : State := { following t with timing := { base.timing with lock := .rejoining } }

/-- A frame of 21 lines of the least width, all complete but the last, which is open and lies in the range 17 to 20. -/
def lastFree : InFrame :=
  { headless := false, decodable := true, openType := .blank, refClks := 21,
    lines := (.frameHead, 720) :: (List.replicate 16 (.active, 720) ++ List.replicate 3 (.blank, 720)) }

/-- An ACQUIRING part with this queue that follows that frame and has assessed one of its geometry. -/
def locking (filled : List Entry) : State :=
  { base with
    timing := { Timing.reset with
      lock := .acquiring, frame := some 5, absence := true, matchCount := 1,
      candidate := some { geometry := { width := 720, activeLines := 16, totalLines := 21 }, pattern := [], period := 9 } }
    comp := { base.comp with latch := .acquiring }
    link := { base.link with inFrame := some lastFree }
    pkt := { base.pkt with filled := filled, inRange := ⟨17, 4⟩, outRange := ⟨17, 4⟩ } }

/-- The words of a free last line. -/
def freeWords : List DataWord := List.replicate 720 ⟨0x040, 0x200⟩

/-! ### WellFormed refuses ill-formed terms -/

/-- LINE_MARKER does not carry FRAME_HEAD's type word. -/
theorem test_wf_line_marker_type : Instr.wellFormed (.lineMarker 0x26C [] 0) = false := by decide +kernel

/-- The data words of a LINE_MARKER hold no marker. -/
theorem test_wf_line_marker_data :
    Instr.wellFormed (.lineMarker 0x2B4 (markerOpening ++ [⟨0x2B4, 0x2B4⟩]) 0) = false := by decide +kernel

/-- The data words of an INPUT_FRAME_HEAD hold no marker, be it one the following marker would complete. -/
theorem test_wf_head_data :
    Instr.wellFormed (.inputFrameHead (⟨0, 0⟩ :: markerOpening) 0 false) = false := by decide +kernel

/-- Only words that are equal in both lanes make a marker, the fourth too (R96): any others are data. -/
theorem test_wf_marker_lanes :
    Instr.wellFormed (.lineMarker 0x2B4 (markerOpening ++ [⟨0x2B4, 0x31C⟩]) 0) = true := by decide +kernel

/-- Words that only with a type word 0x3FF before them would make a marker are data (log 30). -/
theorem test_wf_markers_share_no_word :
    Instr.wellFormed (.lineMarker 0x2B4 (markerOpening.tail ++ [⟨0x2B4, 0x2B4⟩]) 0) = true := by decide +kernel

/-- A message's payload has at most 8192 bytes. -/
theorem test_wf_payload : Instr.wellFormed (.segWrite 1 0 (List.replicate 8193 0)) = false := by decide +kernel

/-- Terms an agent or a link can carry pass. -/
theorem test_wf_passes :
    Instr.wellFormed (.lineMarker 0x2B4 twoWords 4096) = true ∧
      Instr.wellFormed (.inputFrameHead twoWords 4096 false) = true ∧
      Instr.wellFormed (.segWrite 1 0 (List.replicate 8192 0)) = true := by decide +kernel

/-! ### The spec's own numbers -/

/-- The characters 123456789. -/
def digits : List Byte := [0x31, 0x32, 0x33, 0x34, 0x35, 0x36, 0x37, 0x38, 0x39]

/-- R126. -/
theorem test_crc16_check_value : crc16 digits = 0x29B1 := by decide +kernel

/-- R80. -/
theorem test_crc32_check_value : crc32 digits = 0xCBF43926 := by decide +kernel

/-- R98's bytes end before the first word with a lane that is no byte, and they alone are examined where they are not an
odd-length packet's but for its last byte: a luma byte beside chroma 0x200 adds nothing there, and neither does any other
ending word. -/
theorem test_line_bytes :
    lineBytes (packetLine [1, 2, 3] 4) = [1, 2] ∧ lastOddByte (packetLine [1, 2, 3] 4) = [3] ∧
      packetStream (packetLine [1, 2, 3] 4) = [1, 2] ∧ packetStream (packetLine [1, 2] 4) = [1, 2] ∧
      packetStream (packetLine [0xC3] 4) = [] ∧
      [[⟨0x101, 0x201⟩], [⟨0x201, 0x101⟩], twoWords].map packetStream = [[], [], []] := by decide +kernel

/-- Section 6.8: N, an APPLIED notice of part 3, is a packet of 21 bytes in a line of R132. At part 5 it is a response,
forwarded, and no failing packet; without its last byte, R132's, it would be one (log 7). -/
theorem test_worked_cascade :
    let n := packetOf 3 0 0 0x40 .ok 5999 [2, 0x17, 0x6F, 0, 0, 0, 1]
    let bytes := packetStream (packetLine n 12)
    n.length = 21 ∧ bytes = n ∧ lineBytes (packetLine n 12) = n.take 20 ∧ disposition 5 bytes = .forwarded ∧ packetFails bytes = false ∧
      packetFails (n.take 20) = true := by decide +kernel

/-- The windows of section 1.7, with the bitmap bytes the example gives for line 25. -/
def example17 (byte6 : Byte) : List RowFetch :=
  [{ win := { WindowRec.reset 1 with originX := 96, originY := 18, srcWidth := 64, srcHeight := 16, level := 4 },
     bytes := List.replicate 64 40 },
   { win := { WindowRec.reset 3 with
       depth := .d2, srcWidth := 10, srcHeight := 4, originX := 100, originY := 20, hScale := .x2, vScale := .x2,
       palette := 1, level := 8, key := some 0, remap := some [0, 17, 18, 200] },
     bytes := [byte6, 0, 0] }]

/-- The palettes of section 1.7: the entries it names, each at its index. -/
def palettes17 : Compositor :=
  { Compositor.reset with
    palettes := [List.replicate 40 PalEntry.reset ++ [⟨1023, 512, 512, 16⟩],
                 List.replicate 18 PalEntry.reset ++ [⟨900, 300, 700, 12⟩]] }

/-- Section 1.7: pixel (107, 25) leaves as Y 828, Cr 654; with byte 0x1C as Y 612, Cr 516. -/
theorem test_worked_pixel :
    composePixel palettes17 (example17 0x1E) 107 ⟨200, 520⟩ = ⟨828, 654⟩ ∧
      composePixel palettes17 (example17 0x1C) 107 ⟨200, 520⟩ = ⟨612, 516⟩ := by decide +kernel

/-- Section 2.8: weights 6, 12 and 16 over Y 500, Cr 520. -/
theorem test_worked_banner :
    weight 12 4 = 6 ∧ blend 6 300 500 = 425 ∧ blend 6 600 520 = 550 ∧ blend 12 300 500 = 350 ∧
      blend 12 600 520 = 580 ∧ blend 16 300 500 = 300 := by decide +kernel

/-- The windows of section 3.9, window 4 at this origin y. -/
def example39 (y : Nat) : List WindowRec :=
  [{ win 1 0 1024 100 with srcHeight := 64, vScale := .x2 }, { win 1 1 1280 200 with srcHeight := 32 },
   { win 30 3 1600 y with depth := .d4, srcHeight := 40, vScale := .x2 }]

/-- Section 3.9: line 200 carries 3104 bytes; after the WIN_PLACE the greatest load is 2304. -/
theorem test_worked_line_load :
    peakLine (example39 150) = (200, 3104) ∧ (peakLine (example39 240)).2 = 2304 := by decide +kernel

/-- Section 4.12: the free-block list through creates and a delete. -/
theorem test_worked_free_list :
    let a := ((Store.reset.create 12 1024).create 20 12).create 30 32000
    let b := a.free ((a.seg 20).getD (seg 0 .loading 0 []))
    let c := b.create 40 2000
    a.freeList.length = 4030 ∧ b.freeList.length = 4031 ∧ c.freeList.length = 4027 ∧
      (c.seg 40).map (·.blocks) = some [66, 67, 68, 69] ∧ c.freeList.getLast? = some 2 := by decide +kernel

/-- Section 7.12: a lost write halts channel 2, and RESYNC brings it back. -/
theorem test_worked_halted_channel :
    let s := { base with chn := { base.chn with c2 := { answeredOnce with last := 6 } } }
    let a := s.after (.segWrite 2 8 (List.replicate 600 0))
    let b := a.after (.resync 2 6 [])
    a.chn.c2.state = .halted ∧ a.chn.c2.last = 6 ∧ b.chn.c2.state = .idle ∧ b.chn.c2.last = 6 ∧
      (b.chn.c2.cache.map fun p => (p.drop 12).take 2) = some [3, 0] := by decide +kernel

/-! ### The commands, one small test each -/

/-- The result code that channel 0's cached response carries (bytes 8 and 9). -/
def code0 (s : State) : Option (List Byte) := s.chn.c0.cache.map fun p => (p.drop 8).take 2

theorem test_hard_reset :
    (full.after (.hardReset 9)).status.address = 9 ∧ (full.after (.hardReset 9)).pkt.filled = [] := by decide +kernel

theorem test_line_marker :
    ((following .active).after (.lineMarker 0x2B4 [⟨1023, 0⟩] 10)).link.vout =
      .line { type := .active, data := [⟨1019, 4⟩], source := .input, offset := none } := by decide +kernel

theorem test_input_frame_head :
    (State.reset.after (.inputFrameHead [] 0 false)).timing.lock = .acquiring := by decide +kernel

theorem test_third_fault_holds_over :
    ({ following .active with timing := { base.timing with faultCount := 2 } }.after
      (.inputFrameHead twoWords 10 false)).timing.lock = .holdover := by decide +kernel

/-- The message of the line that such a marker completes is handed on in either order, before a head that leaves LOCKED
(R128, R192). -/
theorem test_third_fault_hands_on (headFirst : Bool) :
    let t := faulting.after (.inputFrameHead (discardLine 0) 10 headFirst)
    t.timing.lock = .holdover ∧ t.cset.openSet = [] ∧ code0 t = some [0, 0] := by
  cases headFirst <;> decide +kernel

/-- The first words of the output line in progress, and the entries that wait. -/
def leaving (s : State) : List DataWord × Nat :=
  (match s.link.vout with
    | .line l => l.data.take 2
    | .silent => [], s.pkt.filled.length)

/-- At a head that locks, the change comes before the last line's emission (R109): LOCK_STATE is offered before a free
last line takes its content, so it leaves in that line, or is dropped although the line makes room. -/
theorem test_lock_before_last_line (headFirst : Bool) :
    (let t := (locking []).after (.inputFrameHead freeWords 21 headFirst)
     t.timing.lock = .locked ∧ leaving t = ([⟨0x1C3, 0x111⟩, ⟨0x100, 0x180⟩], 0) ∧ t.status.flags.noticeDropped = false) ∧
      (let t := (locking (List.replicate 16 ⟨[1], false, 0⟩)).after (.inputFrameHead freeWords 21 headFirst)
       leaving t = ([⟨0x101, 0x200⟩, ⟨0x040, 0x200⟩], 15) ∧ t.status.flags.noticeDropped = true) := by
  cases headFirst <;> decide +kernel

/-- In REJOINING a message is taken and its line not emitted (R117, R133). -/
theorem test_line_marker_rejoining :
    let s := { rejoining .blank with cset := faulting.cset }
    let t := s.after (.lineMarker 0x2B4 (discardLine 0) 10)
    t.cset.openSet = [] ∧ t.link.vout = s.link.vout := by decide +kernel

theorem test_absence_expiry :
    (base.after (.absenceExpiry 4000)).timing.gen = some { shape := shape, next := 0, ownHead := true } ∧
      (base.after (.absenceExpiry 3999)).timing.lock = .locked := by decide +kernel

/-- The part in HOLDOVER with the generator at a position. -/
def holding (next count : Nat) : State :=
  { base with timing := { base.timing with
      lock := .holdover, holdoverCount := count, absence := false,
      gen := some { shape := shape, next := next, ownHead := true } } }

theorem test_generator_line_begin :
    ((holding 0 3).after .generatorLineBegin).timing.frame = some 6 ∧
      ((holding 0 3).after .generatorLineBegin).timing.holdoverCount = 4 ∧
      (match ((holding 2 3).after .generatorLineBegin).link.vout with
        | .line l => l.offset
        | .silent => none) = some 2000 := by decide +kernel

theorem test_holdover_limit_reached :
    ({ holding 0 3 with status := { base.status with params := { Params.default with holdoverLimit := 4 } } }.after
      .holdoverLimitReached).link.vout = .silent := by decide +kernel

/-- A head open with a set scheduled that moves window 0 from segment 4 to segment 3. -/
def due (target : Target) : State :=
  { opened with
    cset := { base.cset with scheduled := some { edits := [.winStage 0 (win 3 1 8 0)], target := target } }
    store := { base.store with dir := base.store.dir.map fun g => if g.id = 3 then { g with staged := 1 } else g } }

/-- As in section 4.14: the RETIRING segment is freed at the head, and the new one is acquired. -/
theorem test_set_application :
    let t := (due .next).after .setApplication
    t.store.seg 4 = none ∧ t.store.freeList = [0, 1, 2, 3, 9] ∧ (t.store.seg 3).map (·.active) = some 1 ∧
      (t.store.seg 3).map (·.staged) = some 0 ∧ t.cset.lastApp = some 5 ∧
      t.status.flags.segmentReleased = true ∧ t.pkt.filled.length = 2 := by decide +kernel

/-- Channel 1 joining a message of which one fragment has arrived, after some heads. -/
def joining (heads : Nat) : ChanRec :=
  { state := .assembling, last := 15, cache := none,
    assembly := some { seq := 0, kind := 0x11, frags := [List.replicate 1024 1], heads := heads } }

theorem test_assembly_timeout :
    ({ onCh1 (joining 8) with headOpen := true }.after .assemblyTimeout).chn.c1.state = .idle ∧
      ({ onCh1 (joining 7) with headOpen := true }.after .assemblyTimeout).chn.c1.state = .assembling := by
  decide +kernel

/-- A part whose queue holds one packet of three bytes. -/
def waiting (marked : Bool) : State :=
  { base with pkt := { base.pkt with filled := [⟨[1, 2, 3], marked, 0⟩] } }

theorem test_response_emission :
    ((waiting false).after (.responseEmission 3)).link.vout =
      .line { type := .blank, data := [⟨0x101, 0x102⟩, ⟨0x103, 0x200⟩, ⟨0x040, 0x200⟩], source := .input,
              offset := none } ∧
      ((waiting false).after (.responseEmission 1)).pkt.filled.length = 1 := by decide +kernel

/-- A WIN_STAGE payload: window 0, segment `id`, depth 8, 8 x 1. -/
def stagePayload (id : Byte) : List Byte :=
  [0, 1, id, 8, 0, 8, 0, 1, 0, 0, 0, 0, 1, 1, 0, 8, 1, 0, 0, 0, 0, 0, 0, 0]

theorem test_win_stage :
    code0 (base.after (.winStage 0 0 (stagePayload 3))) = some [0, 0] ∧
      code0 (base.after (.winStage 0 0 (stagePayload 9))) = some [0, 21] := by decide +kernel

theorem test_win_place :
    (base.after (.winPlace 0 0 [7, 0, 0x0F, 0xFF, 0, 1])).cset.openSet = [.winPlace 7 4095 1] := by decide +kernel

theorem test_win_show :
    (base.after (.winShow 0 0 [7, 1])).cset.openSet = [.winShow 7 true] ∧
      code0 (base.after (.winShow 0 0 [8, 1])) = some [0, 4] := by decide +kernel

theorem test_pal_stage :
    (base.after (.palStage 0 0 [0, 0, 0, 1, 3, 255, 0, 2, 0, 3, 0, 16])).cset.openSet =
      [.palStage 0 0 [⟨1023, 2, 3, 16⟩]] := by decide +kernel

theorem test_fill_stage :
    (base.after (.fillStage 0 0 [0, 1, 0, 2, 0, 3])).cset.openSet = [.fillStage ⟨1, 2, 3⟩] := by decide +kernel

/-- A part whose open set holds one edit. -/
def edited : State := { base with
  cset := { base.cset with openSet := [.winShow 0 false] } }

theorem test_set_commit :
    (edited.after (.setCommit 0 0 [1, 0, 6])).cset.scheduled =
        some { edits := [.winShow 0 false], target := .atFrame 6 } ∧
      code0 (edited.after (.setCommit 0 0 [1, 0, 5])) = some [0, 17] := by decide +kernel

theorem test_set_discard :
    (edited.after (.setDiscard 0 0 [])).cset.openSet = [] ∧
      code0 (base.after (.setDiscard 0 0 [])) = some [0, 13] := by decide +kernel

theorem test_set_withdraw :
    code0 (base.after (.setWithdraw 0 0 [])) = some [0, 15] ∧
      ((due .next).after (.setWithdraw 0 0 [])).cset.lastApp = some 5 := by decide +kernel

theorem test_seg_create :
    ((base.after (.segCreate 0 0 [0, 0, 0, 9, 0, 0, 4, 0])).store.seg 9).map (·.blocks) = some [0, 1] ∧
      code0 (base.after (.segCreate 0 0 [0, 0, 0, 9, 0, 0, 8, 1])) = some [0, 26] := by decide +kernel

/-- Segment 1, offset 98, bytes 0xAA and 0xBB. -/
def writePayload : List Byte := [0, 0, 0, 1, 0, 0, 0, 98, 0xAA, 0xBB]

theorem test_seg_write :
    (base.after (.segWrite 1 0 writePayload)).store.queue = [.write 1 1 98 [0xAA, 0xBB]] ∧
      (base.after (.segWrite 1 0 writePayload)).chn.c1.state = .executing := by decide +kernel

theorem test_seg_close :
    (base.after (.segClose 1 0 [0, 0, 0, 1, 0, 0, 0, 7])).store.queue = [.verify 1 1 7] ∧
      ((base.after (.segClose 1 0 [0, 0, 0, 1, 0, 0, 0, 7])).store.seg 1).map (·.state) = some .verifying := by
  decide +kernel

theorem test_seg_delete :
    (base.after (.segDelete 0 0 [0, 0, 0, 3])).store.freeList = [0, 1, 2, 3, 7, 8] ∧
      code0 (base.after (.segDelete 0 0 [0, 0, 0, 4])) = some [0, 23] := by decide +kernel

theorem test_query_status :
    ((base.after (.queryStatus 0 0 [1])).chn.c0.cache.map fun p => (p.drop 12).take 14) =
      some [3, 0xA7, 1, 0xA4, 1, 0, 2, 1, 2, 0xD0, 0, 1, 0, 3] := by decide +kernel

theorem test_query_window :
    ((base.after (.queryWindow 0 0 [0])).chn.c0.cache.map fun p => (p.drop 12).take 6) =
      some [0, 1, 4, 8, 0, 8] := by decide +kernel

theorem test_query_palette :
    ((base.after (.queryPalette 0 0 [0, 0, 0, 0, 1])).chn.c0.cache.map fun p => (p.drop 12).take 13) =
      some [0, 0, 0, 0, 1, 3, 0x84, 1, 0x2C, 2, 0xBC, 0, 12] := by decide +kernel

theorem test_query_segment :
    ((base.after (.querySegment 0 0 [0, 0, 0, 3])).chn.c0.cache.map fun p => (p.drop 12).take 15) =
      some [0, 0, 0, 3, 2, 0, 0, 2, 0x58, 0, 2, 0, 7, 0, 8] := by decide +kernel

theorem test_query_directory :
    ((base.after (.queryDirectory 0 0 [])).chn.c0.cache.map fun p => (p.drop 12).take 12) =
      some [4, 0, 4, 0, 1, 0, 2, 1, 3, 2, 4, 3] := by decide +kernel

theorem test_param_set :
    (base.after (.paramSet 0 0 [5, 0, 64, 5, 0, 2])).status.params.lossInterval = 2 ∧
      code0 (base.after (.paramSet 0 0 [5, 0, 64, 5, 0, 65])) = some [0, 4] := by decide +kernel

theorem test_param_query :
    ((base.after (.paramQuery 0 0 [4, 4])).chn.c0.cache.map fun p => (p.drop 12).take 6) =
      some [4, 255, 255, 4, 255, 255] := by decide +kernel

theorem test_part_reset :
    (base.after (.partReset 0 0 [1])).status.resetting = some .overlay ∧
      code0 ((base.after (.partReset 0 0 [1])).after (.winShow 0 1 [0, 0])) = some [0, 0] := by decide +kernel

theorem test_resync :
    (base.after (.resync 3 9 [])).chn.c3.last = 9 := by decide +kernel

/-- A part with an operation in the access queue, of channel 1. -/
def operating (op : StoreOp) : State :=
  { onCh1 { state := .executing, last := 0, assembly := none, cache := none } with
    store := { base.store with queue := [op] }
    pkt := { base.pkt with reserved := [1] } }

theorem test_seg_write_completion :
    ((operating (.write 1 1 98 [0xAA, 0xBB])).after .segWriteCompletion).store.mem =
        [(2560, 7), (2658, 0xAA), (2659, 0xBB)] ∧
      ((operating (.write 1 1 98 [0xAA, 0xBB])).after .segWriteCompletion).chn.c1.state = .idle := by decide +kernel

theorem test_verify_completion :
    (((operating (.verify 2 1 0)).after .verifyCompletion).store.seg 2).map (·.state) = some .loading := by
  decide +kernel

theorem test_part_reset_effect :
    let s := { waiting true with status := { base.status with resetting := some .full } }
    (s.after (.partResetEffect 2)).store.dir = [] ∧ (s.after (.partResetEffect 1)).store.dir = segments := by
  decide +kernel

/-! ### Witnesses: for each statement with hypotheses, states and operands that meet them, clause by clause -/

/-- `base` is ready for sequence 0 on every channel. -/
theorem witness_ready : base.settle = base ∧ ∀ ch, base.readyFor ch 0 := by
  unfold State.readyFor
  refine ⟨rfl, fun ch => ?_⟩
  match ch with
  | 0 => decide +kernel
  | 1 => decide +kernel
  | 2 => decide +kernel
  | 3 => decide +kernel

theorem witness_StepRunsFrontCommand :
    ({ base with pending := [.setApplication] }).pending = .setApplication :: [] ∧ base.pending = [] ∧
      base.headOpen = false := by decide +kernel

/-- A part that keeps every law, with a command waiting. -/
def lawful : State := { State.reset with pending := [.inputFrameHead [] 0 false] }

/-- Meets the hypotheses of MemoryStaysCanonical, PictureLawKept, SizesAndResetMarkKept, ChannelAndQueueLawsKept and
ReferenceCountsExact together, and its step answers a next state. -/
theorem witness_Laws :
    lawful.memoryLaw = true ∧ idsRise lawful.store.dir = true ∧ lawful.pictureLaw = true ∧ lawful.tableLaw = true ∧
      lawful.setLaw = true ∧ lawful.channelLaw = true ∧ lawful.executingLaw = true ∧ lawful.queueLaw = true ∧
      lawful.markLaw = true ∧ lawful.store.opLaw = true ∧ lawful.namesLaw = true ∧ lawful.countLaw = true ∧
      (match step lawful with
        | .next t => t.timing.lock == .acquiring
        | _ => false) = true := by decide +kernel

theorem witness_BlocksConserved : lawful.store.blockLaw := by
  simp [Store.blockLaw, Store.allBlocks, lawful, State.reset, State.afterHardReset, Store.reset]

theorem witness_ResetHasTheLaws : ∃ t, exec (.hardReset 3) base = .next t := ⟨_, rfl⟩

/-- The ends of the weight's range, and an exact half. -/
theorem witness_BlendArithmetic :
    (0 ≤ 16 ∧ 16 ≤ 16) ∧ 2 * (8 * (101 : Lane).toNat + (16 - 8) * (100 : Lane).toNat) = 16 * (2 * 100 + 1) := by
  decide +kernel

/-- The first column and the first beyond the last of window 1 of section 1.7; a keyed pixel of window 3. -/
theorem witness_WindowVisit :
    (96 ≤ 96 ∧ 96 < 96 + 64 * 1 ∧ ¬ (160 < 96 + 64 * 1)) ∧
      (example17 0x1C).map (fun f => decide (f.win.key = some (rawValue f.win.depth f.bytes 3))) = [false, true] := by
  decide +kernel

theorem witness_RawValuePacking : [(0x80 : Byte), 1][15 * Depth.d1.bits / 8]? = some 1 := by decide +kernel

theorem witness_ComposedLine : twoWords[1]? = some ⟨0x040, 0x200⟩ := by decide +kernel

/-- Two shown windows of different priorities on line 0, and the rows fetched for it. -/
theorem witness_RowFetchesOfALine :
    (let shown := fun w => { slot w with shown := true }
     let s := { base with comp := { base.comp with slots := [shown (win 3 5 8 0), shown (win 3 2 8 0)] } }
     (s.rowFetches 0 720).map (·.win.priority.val) = [2, 5]) ∧
    (win 3 1 8 0).segment = some 3 ∧ base.store.seg 3 = some (seg 3 .ready 600 [7, 8]) ∧ 7 < (win 3 1 8 0).stride := by
  decide +kernel

/-- Not blinking, blinking below the end of the cycle, and at its end. -/
theorem witness_HeadDecision :
    base.comp.slots[0]? = some (slot (win 4 1 8 0)) ∧
      (let w := { win 4 1 8 0 with blinkOn := 2, blinkOff := 3 }
       (w.blinkOn ≠ 0 ∧ w.blinkOff ≠ 0) ∧ 4 + 1 = w.blinkOn + w.blinkOff ∧ 3 + 1 ≠ w.blinkOn + w.blinkOff) := by
  decide +kernel

/-- One entry, one window, and an edit of each kind that names that window, another, or none. -/
theorem witness_ApplicationWrites :
    (base.comp.palettes[0]?).bind (·[0]?) = some ⟨900, 300, 700, 12⟩ ∧
      base.comp.slots[1]? = some (slot (WindowRec.reset 1)) ∧
      [Edit.winStage 1 (WindowRec.reset 1), .winPlace 1 4 5, .winShow 1 true, .winStage 0 (WindowRec.reset 0),
        .winPlace 0 4 5, .winShow 0 true, .palStage 0 0 [], .fillStage ⟨1, 2, 3⟩].map (·.touches 1) =
        [true, true, true, false, false, false, false, false] := by decide +kernel

/-- A full open set: 32 edits. -/
def crowded : State := { base with cset := { base.cset with openSet := List.replicate 32 (.winShow 0 true) } }

theorem witness_crowded_ready : crowded.readyFor 0 0 := by
  unfold State.readyFor; decide +kernel

theorem witness_canStage : (base.canStage 8192 ∧ ¬ base.canStage 8193) ∧ ¬ crowded.canStage 2 := by
  unfold State.canStage; decide +kernel

theorem witness_PlaceAndShowStaged :
    (let p : List Byte := [7, 0, 0x0F, 0xFF, 0x0F, 0xFF]
     p.length = 6 ∧ u1 p 0 ≤ 7 ∧ u1 p 1 = 0 ∧ u2 p 2 = 4095 ∧ u2 p 4 = 4095) ∧
      (let p : List Byte := [7, 1]
       p.length = 2 ∧ u1 p 0 ≤ 7 ∧ u1 p 1 ≤ 1) := by decide +kernel

theorem witness_PaletteAndFillStaged :
    (let p : List Byte := [3, 255, 0, 1, 3, 255, 3, 255, 3, 255, 0, 16]
     p.length = 4 + 8 * u2 p 2 ∧ palStageFits p) ∧
      (let p : List Byte := [3, 255, 3, 255, 3, 255]
       p.length = 6 ∧ u2 p 0 ≤ 1023 ∧ u2 p 2 ≤ 1023 ∧ u2 p 4 ≤ 1023) := by
  unfold palStageFits; decide +kernel

/-- A WIN_STAGE payload with every field at the end of its range, naming segment `id`, with a remap of 16 entries. -/
def stageEdge (id : Byte) : List Byte :=
  [7, 1, id, 4, 16, 0, 16, 0, 15, 255, 15, 255, 4, 4, 3, 8, 7, 255, 255, 2, 1, 15, 0, 16] ++ List.replicate 16 255

/-- Segments 0 (none), 3 (READY), 9 (missing), 1, 2 and 4 (LOADING, VERIFYING, RETIRING) meet the clauses in turn. -/
theorem witness_WindowStaged :
    ((stageEdge 0).length = 24 + u2 (stageEdge 0) 22 ∧ winStageFits (stageEdge 0)) ∧
      [0, 3, 9, 1, 2, 4].map (fun id => u1 (stageEdge id) 2) = [0, 3, 9, 1, 2, 4] ∧
      base.canStage 40 ∧ ¬ crowded.canStage 40 ∧ (base.store.seg 3).map (·.state) = some .ready ∧
      base.store.seg 9 = none ∧ (base.store.seg 1).map (·.state) = some .loading ∧
      (base.store.seg 2).map (·.state) = some .verifying ∧ (base.store.seg 4).map (·.state) = some .retiring := by
  unfold winStageFits State.canStage; decide +kernel

theorem witness_RecordLayouts :
    winStageFits (stageEdge 3) ∧ (stageEdge 3).length = 24 + u2 (stageEdge 3) 22 ∧
      (u1 (stagePayload 3) 20 = 0 ∧ u1 (stagePayload 3) 21 = 0) ∧
      (let p : List Byte := [3, 255, 0, 0, 3, 255, 0, 16]
       0 + 8 ≤ p.length ∧ u2 p 0 ≤ 1023 ∧ u2 p 2 ≤ 1023 ∧ u2 p 4 ≤ 1023 ∧ u2 p 6 ≤ 16) := by
  unfold winStageFits; decide +kernel

/-- The second field of a WIN_SHOW fails; the boundary values are those of `test_bad_values`. -/
theorem witness_BadValueRefused :
    let p : List Byte := [7, 2]
    base.settle.readyFor 0 0 ∧ Kind.winShow ≠ .segWrite ∧ Kind.winShow ≠ .segClose ∧ Kind.winShow.allowsLength p ∧
      p.length ≤ 8192 ∧ (Kind.winShow.valueRules p)[1]? = some (1, u1 p 1 ≤ 1) ∧ ¬ u1 p 1 ≤ 1 ∧
      ∀ j rule, j < 1 → (Kind.winShow.valueRules p)[j]? = some rule → rule.2 := by
  refine ⟨witness_ready.1 ▸ witness_ready.2 0, by decide, by decide, rfl, by decide, rfl, by decide, ?_⟩
  intro j rule hj h
  obtain rfl : j = 0 := by omega
  obtain rfl : _ = rule := Option.some.inj h
  decide

/-- A payload is answered BAD_VALUE at a position, and one with that field at the end of its range is not. -/
def boundary (k : Kind) (bad good : List Byte) (pos : Nat) : Bool :=
  let answer := fun p =>
    (base.after (k.command 0 0 p)).chn.c0.cache.map fun r => ((r.drop 8).take 2, (r.drop 12).take 2)
  answer bad == some ([0, 4], be2 pos) && answer good != some ([0, 4], be2 pos)

/-- The payload with one byte replaced. -/
def poke (p : List Byte) (i : Nat) (v : Byte) : List Byte := p.set i v

/-- One step beyond the range, and its end, for each field that has one (R166). -/
theorem test_bad_values :
    (let p := stagePayload 3
     [(0, 8, 7, 0), (1, 2, 1, 1), (3, 3, 8, 3), (4, 16, 15, 4), (6, 16, 15, 6), (8, 16, 15, 8), (10, 16, 15, 10),
       (12, 3, 4, 12), (13, 3, 4, 13), (14, 4, 3, 14), (15, 9, 8, 15), (16, 8, 7, 16), (19, 3, 2, 19),
       (20, 2, 1, 20)].all
       fun (i, bad, good, pos) => boundary .winStage (poke p i bad) (poke p i good) pos) = true ∧
      boundary .winStage (stagePayload 3 |>.set 3 1 |>.set 20 1 |>.set 21 2 |>.set 23 2 |>.append [0, 0])
        (stagePayload 3 |>.set 3 1 |>.set 20 1 |>.set 21 1 |>.set 23 2 |>.append [0, 0]) 21 = true ∧
      boundary .winStage (stagePayload 3 |>.set 23 2 |>.append [0, 0]) (stagePayload 3) 22 = true ∧
      boundary .winPlace [8, 0, 0, 0, 0, 0] [7, 0, 0, 0, 0, 0] 0 = true ∧
      boundary .winPlace [7, 1, 0, 0, 0, 0] [7, 0, 0, 0, 0, 0] 1 = true ∧
      boundary .winPlace [7, 0, 16, 0, 0, 0] [7, 0, 15, 255, 0, 0] 2 = true ∧
      boundary .winPlace [7, 0, 0, 0, 16, 0] [7, 0, 0, 0, 15, 255] 4 = true ∧
      boundary .winShow [8, 0] [7, 0] 0 = true ∧ boundary .winShow [0, 2] [0, 1] 1 = true ∧
      boundary .palStage [4, 0, 0, 1, 0, 0, 0, 0, 0, 0, 0, 0] [3, 0, 0, 1, 0, 0, 0, 0, 0, 0, 0, 0] 0 = true ∧
      boundary .palStage [3, 0, 0, 0] [3, 255, 0, 1, 0, 0, 0, 0, 0, 0, 0, 0] 2 = true ∧
      boundary .palStage [3, 0, 0, 1, 0, 0, 0, 0, 0, 0, 0, 17] [3, 0, 0, 1, 0, 0, 0, 0, 0, 0, 0, 16] 10 = true ∧
      boundary .fillStage [0, 0, 4, 0, 0, 0] [0, 0, 3, 255, 0, 0] 2 = true ∧
      boundary .setCommit [2, 0, 0] [1, 0, 0] 0 = true ∧
      boundary .segCreate [0, 0, 1, 0, 0, 0, 0, 1] [0, 0, 0, 255, 0, 0, 0, 1] 0 = true ∧
      boundary .segCreate [0, 0, 0, 9, 0, 32, 0, 1] [0, 0, 0, 9, 0, 32, 0, 0] 4 = true ∧
      boundary .queryStatus [2] [1] 0 = true ∧ boundary .queryWindow [8] [1] 0 = true ∧
      boundary .queryPalette [4, 0, 0, 0, 1] [3, 0, 0, 0, 1] 0 = true ∧
      boundary .queryPalette [0, 1, 0, 0, 1] [0, 0, 255, 0, 1] 1 = true ∧
      boundary .queryPalette [0, 0, 0, 0, 121] [0, 0, 0, 0, 120] 3 = true ∧
      boundary .paramSet [7, 0, 0] [6, 0, 63] 0 = true ∧
      boundary .paramSet [5, 0, 2, 5, 0, 65] [5, 0, 2, 5, 0, 64] 4 = true ∧
      boundary .paramQuery [1, 7] [1, 6] 1 = true ∧ boundary .partReset [3] [2] 0 = true := by decide +kernel

/-- A part without windows whose open set holds a fill colour. -/
def plain : State := { base with
  comp := { base.comp with slots := [] }
  cset := { base.cset with openSet := [.fillStage ⟨1, 2, 3⟩] } }

/-- The least and the greatest lead that is taken, and NEXT. -/
theorem witness_CommitTaken :
    plain.readyFor 0 0 ∧ plain.projection = [] ∧ plain.cset.scheduled = none ∧ plain.cset.openSet ≠ [] ∧
      (BitVec.ofNat 16 (u2 [1, 0, 6] 1) - (5 : FrameNo)).toNat = 1 ∧
      (BitVec.ofNat 16 (u2 [1, 4, 5] 1) - (5 : FrameNo)).toNat = 1024 ∧ u1 [0, 0, 0] 0 ≠ 1 ∧
      (∀ i j, ¬ clashes [] i j) ∧ (∀ i, ¬ unnamed [] i) ∧ (∀ i, ¬ short plain.store [] i) ∧
      ∀ y, lineLoad [] y ≤ 3072 := by
  refine ⟨by unfold State.readyFor; decide +kernel, rfl, rfl, by decide +kernel, by decide +kernel, by decide +kernel,
    by decide +kernel, ?_, ?_, ?_, ?_⟩
  · rintro i j ⟨_, v, w, h, _⟩; simp at h
  · rintro i ⟨w, h, _⟩; simp at h
  · rintro i ⟨w, h, _⟩; simp at h
  · intro y; exact Nat.zero_le _

/-- The leads at which LATE and FAR begin and end, and a projection that is refused. -/
theorem witness_CommitRefused :
    (BitVec.ofNat 16 (u2 [1, 0, 5] 1) - (5 : FrameNo)).toNat = 0 ∧
      (BitVec.ofNat 16 (u2 [1, 0x80, 5] 1) - (5 : FrameNo)).toNat = 32768 ∧
      (BitVec.ofNat 16 (u2 [1, 4, 6] 1) - (5 : FrameNo)).toNat = 1025 ∧
      (BitVec.ofNat 16 (u2 [1, 0x80, 4] 1) - (5 : FrameNo)).toNat = 32767 ∧
      (due .next).cset.scheduled ≠ none ∧ base.cset.openSet = [] ∧ edited.cset.openSet ≠ [] ∧
      edited.cset.scheduled = none ∧
      projectionRefusal base.store [win 3 1 4096 0] = some (.answer .segmentShort [0, 0, 0, 16, 0, 0, 0, 2, 0x58]) := by
  decide +kernel

/-- Two windows of one priority; one that names none; one that is short; one of 4096 bytes on line 100; none. -/
theorem witness_ProjectionChecks :
    (lowest (fun i => ∃ j, clashes [win 3 1 8 0, win 3 1 8 0] i j) 0 ∧
      lowest (clashes [win 3 1 8 0, win 3 1 8 0] 0) 1) ∧
      (∀ w : WindowRec, ∀ i j, ¬ clashes [w] i j) ∧ lowest (unnamed [{ win 3 1 8 0 with segment := none }]) 0 ∧
      lowest (short base.store [win 3 1 4096 0]) 0 ∧ (∀ i, ¬ unnamed [win 3 1 600 0] i) ∧
      (∀ i, ¬ short base.store [win 3 1 600 0] i) ∧ (∀ y, lineLoad [win 3 1 600 0] y ≤ 3072) ∧
      peaksAt [win 3 1 4096 100] 100 4096 := by
  have only {w v : WindowRec} {i : Nat} (h : [w][i]? = some v) : i = 0 ∧ v = w := by
    cases i with
    | zero => simp at h; exact ⟨rfl, h.symm⟩
    | succ n => simp at h
  have load (w : WindowRec) (y : Nat) : lineLoad [w] y = if (w.enabled && w.coversLine y) = true then w.stride else 0 := by
    unfold lineLoad
    rw [List.filter_cons]
    split <;> simp
  refine ⟨⟨⟨⟨1, by decide, _, _, rfl, rfl, rfl, rfl, rfl⟩, fun j _ => Nat.zero_le j⟩,
    ⟨by decide, _, _, rfl, rfl, rfl, rfl, rfl⟩, fun j h => ?_⟩, ?_, ⟨⟨_, rfl, rfl, rfl⟩, fun j _ => Nat.zero_le j⟩,
    ⟨⟨_, rfl, rfl, by decide +kernel⟩, fun j _ => Nat.zero_le j⟩, ?_, ?_, ?_, ?_, ?_, ?_⟩
  · exact Nat.pos_of_ne_zero fun h0 => h.1 h0.symm
  · rintro w i j ⟨h, v, v', h1, h2, _⟩
    exact h ((only h1).1.trans (only h2).1.symm)
  · rintro i ⟨w, h, _, h3⟩
    rw [(only h).2] at h3
    simp [win] at h3
  · rintro i ⟨w, h, _, h3⟩
    rw [(only h).2] at h3
    exact absurd h3 (by decide +kernel)
  · intro y
    rw [load]
    split
    · decide +kernel
    · exact Nat.zero_le _
  · decide +kernel
  · intro y
    rw [load]
    split
    · decide +kernel
    · exact Nat.zero_le _
  · intro y hy
    rw [load]
    have : (win 3 1 4096 100).coversLine y = false := by
      have h : ¬ 100 ≤ y := by omega
      simp [WindowRec.coversLine, win, h]
    simp [this]

theorem witness_SetDiscarded : base.cset.openSet = [] ∧ edited.readyFor 0 0 ∧ edited.cset.openSet ≠ [] := by
  unfold State.readyFor; decide +kernel

theorem witness_SetWithdrawn :
    base.cset.scheduled = none ∧
      ({ due .next with headOpen := false }).readyFor 0 0 ∧ (due .next).cset.scheduled ≠ none := by
  unfold State.readyFor; decide +kernel

/-- NEXT, due at its frame, due late, and not yet due; a head that is not open, and one with no set. -/
theorem witness_SetApplied :
    ([Target.next, .atFrame 5, .atFrame 4, .atFrame 6].all fun target =>
      (due target).headOpen && (due target).status.resetting.isNone && (due target).timing.frame == some 5 &&
        ((due target).cset.scheduled.map (·.target)) == some target) = true ∧
      ((5 : FrameNo) - 5).toNat < 32768 ∧ (((5 : FrameNo) - 4).toNat < 32768 ∧ (5 : FrameNo) ≠ 4) ∧
      32768 ≤ ((5 : FrameNo) - 6).toNat ∧ base.headOpen = false ∧ opened.cset.scheduled = none := by decide +kernel

/-- The directory with 64 records. -/
def packed : State := { base with
  store := { base.store with dir := (List.range 64).map fun i => seg (i + 1) .ready 1 [i] } }

/-- An id in use, a full directory, a length of more blocks than are free, and the longest that fits. -/
theorem witness_SegmentCreated :
    (base.store.seg 255 = none ∧ (base.store.seg 1).isSome = true) ∧ base.store.dir.length < 64 ∧
      packed.store.dir.length = 64 ∧ packed.store.seg 255 = none ∧ packed.readyFor 0 0 ∧
      (u4 [0, 0, 0, 255, 0, 0, 8, 1] 4 + 511) / 512 = base.store.freeList.length + 1 ∧
      (u4 [0, 0, 0, 255, 0, 0, 8, 0] 4 + 511) / 512 = base.store.freeList.length ∧
      u4 [0, 0, 0, 255, 0, 32, 0, 0] 4 = 2097152 := by
  unfold State.readyFor; decide +kernel

/-- A write of the segment's last byte, and a close, of the LOADING segment. -/
theorem witness_BulkQueued :
    (1 : Chan) ≠ 0 ∧ (base.store.seg 1).map (fun g => (g.state, g.length)) = some (.loading, 100) ∧
      (let p : List Byte := [0, 0, 0, 1, 0, 0, 0, 99, 7]
       u4 p 0 = 1 ∧ 9 ≤ p.length ∧ p.length ≤ 8192 ∧ u4 p 4 + (p.length - 8) = 100) ∧
      [(0 : Byte), 0, 0, 1, 0, 0, 0, 0].length = 8 := by decide +kernel

theorem witness_BulkRefused :
    base.store.seg 9 = none ∧ (base.store.seg 2).map (·.state) = some .verifying ∧
      (base.store.seg 3).map (·.state) = some .ready ∧ (base.store.seg 4).map (·.state) = some .retiring ∧
      (let p : List Byte := [0, 0, 0, 1, 0, 0, 0, 100, 7]
       u4 p 0 = 1 ∧ 9 ≤ p.length ∧ p.length ≤ 8192 ∧ 100 < u4 p 4 + (p.length - 8)) := by decide +kernel

/-- Two bytes that end at the end of the block list. -/
theorem witness_WriteLands :
    (let s := operating (.write 3 1 1022 [1, 2])
     segAddr [7, 8] 1023 = some 4607 ∧ (2560, 7) ∈ s.store.mem ∧ (∀ c ∈ s.store.mem, c.1 ≠ 2561) ∧
       s.store.queue = .write 3 1 1022 [1, 2] :: [] ∧ s.store.seg 3 = some (seg 3 .ready 600 [7, 8]) ∧
       s.memoryLaw = true ∧ [7, 8].Nodup ∧ 1022 + [(1 : Byte), 2].length = 512 * [7, 8].length) := by decide +kernel

/-- A check value that agrees, and one that does not. -/
theorem witness_VerifyCompletes :
    (let s := operating (.verify 2 1 0xFF41D912)
     s.store.queue = .verify 2 1 0xFF41D912 :: [] ∧ (s.store.seg 2).isSome = true ∧
       crc32 ((List.range 3).map fun a => segRead s.store.mem [6] a) = 0xFF41D912 ∧
       (0xFF41D912 : BitVec 32) ≠ 0) := by decide +kernel

/-- Segments without references to delete: VERIFYING, READY with and without an active reference, staged, RETIRING. -/
theorem witness_SegmentDeleted :
    base.store.seg 9 = none ∧ (base.store.seg 2).map (·.state) = some .verifying ∧
      base.store.seg 3 = some (seg 3 .ready 600 [7, 8]) ∧ base.store.seg 1 = some (seg 1 .loading 100 [5]) ∧
      ((due .next).store.seg 3).map (fun g => (g.queued, g.staged)) = some (0, 1) ∧
      (base.store.seg 4).map (fun g => (g.state, g.queued, g.staged)) = some (.retiring, 0, 0) ∧
      ({ base.store with dir := [{ seg 3 .ready 600 [7, 8] with active := 1 }] }.seg 3).map Segment.active = some 1 := by decide +kernel

theorem witness_LastReferenceFrees :
    (base.store.seg 4).map (fun g => (g.state, g.active)) = some (.retiring, 1) ∧
      (base.store.seg 3).map (·.state) = some .ready := by decide +kernel

theorem witness_MemoryChangesOnlyByStoring :
    (due .next).channelLaw = true ∧ (∃ t, exec .setApplication (due .next) = .next t) ∧ base.store.mem.read 2560 = 7 :=
  ⟨by decide +kernel, ⟨_, rfl⟩, by decide +kernel⟩

/-- A line without a message; one with a message, before a head after which lines are taken and one after which none is;
the same in REJOINING. -/
theorem witness_InputHeadEnters :
    let v := fun s : State => (s.completeLine (discardLine 0)).1.settle
    let judged := fun s : State => ((v s).judgeFrame
      (((frameWith .blank).withLine (discardLine 0)).shape? s.pkt.inRange (10 + 10))).headBegun
    State.reset.timing.lock = .noSignal ∧ (holding 1 0).timing.lock = .holdover ∧ (0x2B4 : Lane) ≠ 0x26C ∧
      (following .active).timing.lock = .locked ∧ ((following .active).completeLine twoWords).2 = none ∧
      ([following .blank, faulting, rejoining .blank].all fun s =>
        s.link.inFrame == some (frameWith .blank) && (s.completeLine (discardLine 0)).2.isSome) = true ∧
      faulting.timing.lock = .locked ∧ (rejoining .blank).timing.lock = .rejoining ∧
      (judged (following .blank)).takesLines = true ∧ (judged faulting).takesLines = false ∧
      (judged (rejoining .blank)).takesLines = true := by decide +kernel

/-- A head that locks; with the candidate's match count at 0 the same head does not. -/
theorem witness_InputHeadEnters_locks :
    (locking []).timing.lock = .acquiring ∧ (locking []).link.inFrame = some lastFree ∧
      ((lastFree.withLine freeWords).shape? ⟨17, 4⟩ (21 + 21)).map (·.geometry) =
        (locking []).timing.candidate.map (·.geometry) ∧
      ([1, 0].map fun n => ({ locking [] with timing := { (locking []).timing with matchCount := n } }).locksAtHead
        freeWords 21) = [true, false] := by decide +kernel

/-- Sixteen ACTIVE lines of the least width, with the default range of four BLANK lines. -/
def leastFrame : InFrame :=
  { headless := false, decodable := true, openType := .active, refClks := 21,
    lines := (.frameHead, 720) :: (List.replicate 4 (.blank, 720) ++ List.replicate 16 (.active, 720)) }

theorem witness_ValidFrame :
    (leastFrame.shape? ⟨1, 4⟩ 21).map (·.geometry) = some { width := 720, activeLines := 16, totalLines := 21 } := by
  decide +kernel

/-- A candidate that is absent, equal, and other; a lock with two faults, with and without a holdover limit. -/
theorem witness_CompletedFrameJudged :
    (let a : State := { base with timing := { Timing.reset with lock := .acquiring, candidate := some shape, matchCount := 1 } }
     a.timing.lock = .acquiring ∧ a.timing.candidate = some shape ∧ 1 ≤ a.timing.matchCount ∧
       shape.geometry ≠ { shape.geometry with width := 721 }) ∧
      base.timing.lock = .locked ∧ base.timing.recorded = some shape ∧ base.timing.faultCount < 2 ∧
      base.status.params.holdoverLimit ≠ 0 ∧
      ({ base.timing with faultCount := 2 }).faultCount = 2 := by decide +kernel

/-- The last REF_CLK period before the interval's end and its end, in each lock state; the timer stopped. -/
theorem witness_AbsenceExpires :
    base.timing.absence = true ∧ base.absenceInterval = 4000 ∧ 3999 < base.absenceInterval ∧
      State.reset.timing.absence = false ∧ (following .active).timing.gen = none ∧
      (following .active).link.inFrame.isSome = true ∧
      ({ base with timing := { Timing.reset with lock := .acquiring, absence := true } }).absenceInterval = 16384 ∧
      ({ base with timing := { base.timing with lock := .rejoining } }).absenceInterval = 4000 ∧
      (let s := { base with timing := { base.timing with gen := (holding 1 0).timing.gen } }
       s.timing.absence = true ∧ s.timing.lock = .locked ∧ s.absenceInterval = 4000 ∧ s.timing.gen.isSome = true) ∧
      ({ base with timing := { base.timing with lock := .acquiring, candidate := some shape } }).absenceInterval = 4000 ∧
      ({ base.status.params with holdoverLimit := 0 }).holdoverLimit = 0 := by decide +kernel

/-- A line being emitted and silence, no reset waiting and either scope; with room, without, and with the mask's bit clear. -/
theorem witness_NoSignalEntered :
    base.link.vout = .silent ∧ ((holding 0 3).after .generatorLineBegin).link.vout ≠ .silent ∧
    base.status.params.noticeMask % 2 = 1 ∧ base.pkt.total < 16 ∧ 16 ≤ full.pkt.total ∧ 62 % 2 = 0 ∧
      ((waiting true).pkt.filled.filter fun e => !e.marked) = [] ∧
      base.status.resetting = none ∧
      ({ base with status := { base.status with resetting := some .overlay } }).status.resetting = some .overlay ∧
      ({ base with status := { base.status with resetting := some .full } }).status.resetting = some .full := by
  decide +kernel

/-- The count just below the limit and at it; the generator stopped, still running after a relock, and inside a frame. -/
theorem witness_GeneratedHead :
    base.timing.gen = none ∧
      (let s := { base with timing := { base.timing with gen := (holding 0 3).timing.gen } }
       s.timing.lock = .locked ∧ s.timing.gen = some { shape := shape, next := 0, ownHead := true }) ∧
      ((holding 1 3).timing.gen.map Generator.next) = some 1 ∧
    (holding 0 3).timing.lock = .holdover ∧ (holding 0 3).timing.recorded = some shape ∧
      (holding 0 3).timing.gen = some { shape := shape, next := 0, ownHead := true } ∧
      (4 ≤ 65534 ∧ 4 ≤ min 65535 ((holding 0 3).timing.holdoverCount + 1)) ∧
      min 65535 ((holding 0 3).timing.holdoverCount + 1) < 5 ∧
      min 65535 ((holding 0 65534).timing.holdoverCount + 1) = 65535 := by decide +kernel

/-- An ACTIVE line, a BLANK line inside the outbound range, and one before it. -/
theorem witness_GeneratedLine :
    shape.pattern[2]? = some .active ∧ shape.pattern[1]? = some .blank ∧
      ((holding 1 0).pkt.outRange.first ≤ 1 ∧ 1 < (holding 1 0).pkt.outRange.first + (holding 1 0).pkt.outRange.count) ∧
      ¬ (2 ≤ 1 ∧ 1 < 2 + 4) := by decide +kernel

/-- A frame of which all but the last of 4200 lines are complete. -/
def longFrame : InFrame := { frameWith .active with lines := List.replicate 4199 (.active, 2) }

/-- Lines of each type; in REJOINING, lines of each disposition; the 4201st marker, with the lock kept and lost. -/
theorem witness_LineRelayed :
    (following .active).settle.follows ∧ (frameWith .active).goesOn 0x2B4 ∧
      (following .active).comp.latch = .locked ∧
      (following .blank).pkt.inRange.holds (frameWith .blank).lines.length = true ∧
      (⟨2, 4⟩ : MgmtRange).holds (frameWith .blank).lines.length = false ∧
      (frameWith (.unknown 0x111)).openType = .unknown 0x111 ∧
      (rejoining .blank).timing.lock = .rejoining ∧
      disposition 0 (packetStream twoWords) = .free ∧ disposition 0 (packetStream (discardLine 9)) = .forwarded ∧
      (match disposition 0 (packetStream (discardLine 0)), disposition 0 (packetStream (discardLine 63)) with
        | .consumed _, .broadcast _ => true
        | _, _ => false) = true ∧
      4200 ≤ longFrame.lines.length + 1 ∧
      ([following .active, faulting].map fun s =>
        let s := { s with link := { s.link with inFrame := some longFrame } }
        (((s.completeLine twoWords).1.handed (s.completeLine twoWords).2).judgeFrame none).timing.lock) =
          [.locked, .holdover] := by
  unfold State.follows InFrame.goesOn; decide +kernel

theorem witness_FrameHeadRelayed :
    (following .frameHead).settle.follows ∧ (frameWith .frameHead).goesOn 0x2B4 ∧
      ([⟨0x100, 0x1FF⟩] : List DataWord) = ⟨0x100, 0x1FF⟩ :: [] ∧ ¬ 0x100 ≤ (0x0FF : Lane).toNat := by
  unfold State.follows InFrame.goesOn; decide +kernel

/-- The ends of the byte range in both lanes, an ending word with and without a last odd byte; bytes that are empty,
fail, are a response, a command for this part, for another, and for all. -/
theorem witness_LineDisposition :
    lineBytes [⟨0x100, 0x1FF⟩, ⟨0x1FF, 0x200⟩] = [0, 255] ∧ lastOddByte [⟨0x100, 0x1FF⟩, ⟨0x1FF, 0x200⟩] = [255] ∧
      packetStream [⟨0x100, 0x1FF⟩, ⟨0x1FF, 0x200⟩] = [0, 255] ∧ packetStream [⟨0x0FF, 0x200⟩] = [] ∧
      (let p := packetOf 3 0 0 0x40 .ok 0 [1]
       p.length = 15 ∧ (lineBytes (packetLine p 8)).length = 14 ∧ packetStream (packetLine p 8) = p) ∧
      packetStream [⟨0x200, 0x100⟩] = [] ∧ packetStream [⟨0x100, 0x0FF⟩] = [] ∧ packetStream [⟨0x100, 0x201⟩] = [] ∧
    ([] : List Byte).head? ≠ some 0xC3 ∧ packetFails [0xC3] = true ∧
      disposition 9 (discardPacket 9) =
        .consumed { ch := 0, index := 0, last := true, seq := 0, kind := 9, payload := [] } ∧
      disposition 9 (discardPacket 8) = .forwarded ∧
      disposition 9 (discardPacket 63) =
        .broadcast { ch := 0, index := 0, last := true, seq := 0, kind := 9, payload := [] } ∧
      disposition 0 (packetOf 0 0 0 9 .ok 0 []) = .forwarded := by decide +kernel

/-- A line of each disposition, inside the inbound range. -/
theorem witness_ManagementLineRelayed :
    (following .blank).timing.lock = .locked ∧ (following .blank).link.inFrame = some (frameWith .blank) ∧
      (frameWith .blank).openType = .blank ∧ ((0x2B4 : Lane) ≠ 0x26C ∧ (frameWith .blank).lines.length + 1 < 4200) ∧
    (frameWith .blank).headless = false ∧ base.pkt.inRange.holds 1 = true ∧ base.pkt.inRange.holds 4 = true ∧
      disposition base.status.address (packetStream twoWords) = .free ∧
      packetStream (packWords (discardPacket 0)) = discardPacket 0 ∧
      (disposition 0 (discardPacket 0)).fragment?.isSome = true ∧ base.pkt.outRange.holds 1 = true ∧
      (⟨2, 4⟩ : MgmtRange).holds 1 = false := by decide +kernel

/-- An empty queue, an entry that just fits, and one that does not; a packet that the part forms. -/
theorem witness_ResponseEmitted :
    (let p := packetOf 3 0 0 0x40 .ok 0 [1]
     p.head? = some 0xC3 ∧ p.length = 14 + u2 p 6) ∧
    base.timing.frame.isSome = true ∧ base.pkt.filled = [] ∧
      (waiting false).pkt.filled = ⟨[1, 2, 3], false, 0⟩ :: [] ∧ (waiting true).pkt.filled = ⟨[1, 2, 3], true, 0⟩ :: [] ∧
      ([(1 : Byte), 2, 3].length + 1) / 2 = 2 := by decide +kernel

theorem witness_DuplicateAnswered :
    (onCh1 answeredOnce).takesLines = true ∧ ((onCh1 answeredOnce).chan 1).state = .idle ∧
      ((onCh1 answeredOnce).chan 1).cache = some [1, 2] ∧ (onCh1 answeredOnce).pkt.total < 16 ∧
      (base.chan 1).cache = none ∧ full.pkt.total = 16 := by decide +kernel

theorem witness_FragmentRefused :
    (let f : Fragment := { ch := 1, index := 0, last := true, seq := 2, kind := 0x11, payload := [] }
     f.kind ≠ 0x30 ∧ (base.chan f.ch).state = .idle ∧ f.seq ≠ (base.chan f.ch).last ∧
       f.seq ≠ (base.chan f.ch).last + 1 ∧ base.pkt.total < 16 ∧ full.pkt.total = 16) ∧
      ((operating (.write 1 1 0 [1])).chan 1).state = .executing ∧
      ((onCh1 { answeredOnce with state := .halted }).chan 1).state = .halted := by decide +kernel

/-- An idle channel and one joining, with room and without; the next index, one held already, and one beyond the next.
-/
theorem witness_FragmentsJoined :
    (base.chan 1).state = .idle ∧ (0 : SeqNo) = (base.chan 1).last + 1 ∧ base.pkt.total < 16 ∧ 16 ≤ full.pkt.total ∧
      ((onCh1 (joining 0)).chan 1).state = .assembling ∧
      (let s := { onCh1 (joining 0) with pkt := full.pkt }
       (s.chan 1).state = .assembling ∧ 16 ≤ s.pkt.total) ∧
      ((onCh1 (joining 0)).chan 1).assembly.map (fun a => (a.seq, a.frags.length)) = some (0, 1) ∧
      (List.replicate 1024 (1 : Byte)).length = 1024 ∧ (5 : SeqNo) ≠ 0 ∧ 0 < 1 ∧ 1 < 2 := by decide +kernel

/-- A state that takes no message (HOLDOVER, and ACQUIRING before its first head), and states that do. -/
theorem witness_MessageReservedAndChecked :
    (holding 1 0).settle.takesLines = false ∧
      ({ base with timing := { Timing.reset with lock := .acquiring } }).settle.takesLines = false ∧
      (rejoining .blank).settle.takesLines = true ∧
    full.takesLines = true ∧ (full.chan 0).state = .idle ∧ (0 : SeqNo) = (full.chan 0).last + 1 ∧ 16 ≤ full.pkt.total ∧
      Kind.ofCode? 0x40 = none ∧ Kind.ofCode? 0x11 = some .segWrite ∧ Kind.segWrite.onChannel 0 = false ∧
      Kind.winShow.lengthAllowed [1] = false ∧ Kind.winShow.statedLength [1] = some 2 ∧
      (let s := { waiting true with status := { base.status with resetting := some .full } }
       s.status.resetting ≠ none ∧ s.pkt.total < 16 ∧ Kind.winShow.lengthAllowed [1, 1] = true) := by decide +kernel

theorem witness_AssembliesTimeOut :
    (let s := { onCh1 (joining 8) with headOpen := true }
     s.headOpen = true ∧ (s.chan 1).assembly.map (·.heads) = some 8 ∧ s.status.params.assemblyTimeout = 8 ∧
       (s.chan 2).assembly = none) ∧ base.headOpen = false := by decide +kernel

theorem witness_Resynchronised :
    base.takesLines = true ∧ full.takesLines = true ∧ (base.chan 3).state ≠ .executing ∧ base.pkt.total < 16 ∧
      16 ≤ full.pkt.total ∧ base.status.resetting = none ∧
      ((operating (.write 1 1 0 [1])).chan 1).state = .executing ∧
      (operating (.write 1 1 0 [1])).pkt.total < 16 := by decide +kernel

/-- Both ends of every parameter's range, sixteen pairs at most. -/
theorem witness_ParametersSetAndQueried :
    (let p : List Byte := [1, 0, 63, 2, 0, 16, 3, 0, 255, 4, 255, 255, 5, 0, 64, 6, 0, 63, 1, 0, 1, 2, 0, 1, 3, 0, 1,
       4, 0, 0, 5, 0, 2, 6, 0, 0]
     p.length = 3 * 12 ∧ ∀ k < 12, paramInRange (u1 p (3 * k)) (u2 p (3 * k + 1))) ∧
      (∀ k < 6, 1 ≤ u1 [1, 2, 3, 4, 5, 6] k ∧ u1 [1, 2, 3, 4, 5, 6] k ≤ 6) := by
  unfold paramInRange; decide +kernel

theorem witness_StatusReported : [(1 : Byte)].length = 1 ∧ u1 [1] 0 ≤ 1 ∧ u1 [0] 0 ≤ 1 := by decide +kernel

/-- The payloads of the two scopes; `witness_ready` meets the rest. -/
theorem witness_PartResetTaken :
    base.readyFor 0 0 ∧
      code0 (base.after (.partReset 0 0 [1])) = some [0, 0] ∧ code0 (base.after (.partReset 0 0 [2])) = some [0, 0] := by
  unfold State.readyFor; decide +kernel

theorem witness_PartResetEffect :
    (let s := { waiting true with status := { base.status with resetting := some .full } }
     s.timing.frame.isSome = true ∧ s.timing.lock ≠ .noSignal ∧ s.pkt.filled = ⟨[1, 2, 3], true, 0⟩ :: [] ∧
       ([(1 : Byte), 2, 3].length + 1) / 2 ≤ 2 ∧ s.status.resetting = some .full) := by decide +kernel

theorem witness_WindowAndPaletteQueried :
    (base.comp.palettes[(0 : Fin 4).val]?).bind (·[0]?) = some ⟨900, 300, 700, 12⟩ ∧
      base.comp.slots[u1 [1] 0]? = some (slot (WindowRec.reset 1)) ∧
      (let p : List Byte := [3, 0, 255, 0, 1]
       p.length = 5 ∧ u1 p 0 ≤ 3 ∧ u2 p 1 ≤ 255 ∧ 1 ≤ u2 p 3 ∧ u2 p 1 + u2 p 3 = 256) ∧
      (let p : List Byte := [0, 0, 0, 0, 120]
       1 ≤ u2 p 3 ∧ u2 p 3 ≤ 120 ∧ u2 p 1 + u2 p 3 ≤ 256) := by decide +kernel

/-- No segment; one of one block, and one of two. -/
theorem witness_StoreQueried :
    idsRise base.store.dir = true ∧ base.store.seg (u4 [0, 0, 0, 0] 0) = none ∧ (base.store.seg 1).map (·.blocks) = some [5] ∧
      (base.store.seg 3).map (·.blocks) = some (7 :: [] ++ [8]) := by decide +kernel

theorem witness_NoticeAdmission :
    base.status.params.noticeMask / NoticeKind.lockState.weight % 2 = 1 ∧ base.pkt.total < 16 ∧
      16 ≤ full.pkt.total ∧ ¬ (62 / NoticeKind.lockState.weight % 2 = 1) := by decide +kernel

end Sys2Proof.Tests
end

namespace Sys2Proof.Machine

/-! ## The active table: what an edit, an application and a head make of the window records -/

/-- A list changed at one place looks the same through a function that the change does not show in. -/
theorem map_modify_of_eq {α β : Type} (f : α → β) (g : α → α) (h : ∀ a, f (g a) = f a) (l : List α) (i : Nat) :
    (l.modify i g).map f = l.map f := by
  refine List.ext_getElem? fun j => ?_
  rw [List.getElem?_map, List.getElem?_modify, List.getElem?_map]
  cases l[j]? with
  | none => rfl
  | some a => by_cases hij : i = j <;> simp [hij, h]

/-- A record changed in its slot is the record changed in the list of records. -/
theorem setWin_wins (slots : List WinSlot) (i : Nat) (f : WindowRec → WindowRec) :
    (setWin slots i f).map (·.win) = (slots.map (·.win)).modify i f := by
  refine List.ext_getElem? fun j => ?_
  rw [setWin, List.getElem?_map, List.getElem?_modify, List.getElem?_modify, List.getElem?_map]
  cases slots[j]? with
  | none => rfl
  | some sl => by_cases h : i = j <;> simp [h]

@[simp] theorem Compositor.write_winStage_wins (c : Compositor) (i : Nat) (w : WindowRec) :
    (c.write (.winStage i w)).wins = c.wins.modify i fun _ => w :=
  setWin_wins c.slots i fun _ => w

@[simp] theorem Compositor.write_winPlace_wins (c : Compositor) (i x y : Nat) :
    (c.write (.winPlace i x y)).wins = c.wins.modify i fun w => { w with originX := x, originY := y } :=
  setWin_wins c.slots i fun w => { w with originX := x, originY := y }

@[simp] theorem Compositor.write_winShow_wins (c : Compositor) (i : Nat) (on : Bool) :
    (c.write (.winShow i on)).wins = c.wins.modify i fun w => { w with enabled := on } :=
  setWin_wins c.slots i fun w => { w with enabled := on }

@[simp] theorem Compositor.write_palStage_wins (c : Compositor) (p first : Nat) (entries : List PalEntry) :
    (c.write (.palStage p first entries)).wins = c.wins := rfl

@[simp] theorem Compositor.write_fillStage_wins (c : Compositor) (colour : Colour) :
    (c.write (.fillStage colour)).wins = c.wins := rfl

/-- The records after an edit depend on the records before it alone. -/
theorem Compositor.write_wins_congr {c d : Compositor} (h : c.wins = d.wins) (e : Edit) :
    (c.write e).wins = (d.write e).wins := by
  cases e <;> simp [h]

/-- The projected records depend on the records alone, not on phases, latch or palettes. -/
theorem Compositor.writeAll_wins_congr {c d : Compositor} (h : c.wins = d.wins) (edits : List Edit) :
    (c.writeAll edits).wins = (d.writeAll edits).wins := by
  induction edits generalizing c d with
  | nil => exact h
  | cons e es ih => exact ih (Compositor.write_wins_congr h e)

@[simp] theorem Compositor.decideShown_wins (c : Compositor) : c.decideShown.wins = c.wins := by
  simp [Compositor.wins, Compositor.decideShown, Function.comp_def]

@[simp] theorem Compositor.restartTouched_wins (c : Compositor) (edits : List Edit) :
    (c.restartTouched edits).wins = c.wins := by
  refine List.ext_getElem? fun i => ?_
  simp only [Compositor.wins, Compositor.restartTouched, List.getElem?_map, List.getElem?_mapIdx, Option.map_map]
  refine congrArg (Option.map · c.slots[i]?) (funext fun sl => ?_)
  simp only [Function.comp_apply]
  split <;> rfl

/-- An application writes the records that its edits write, and no other (R17). -/
@[simp] theorem Compositor.apply_wins (c : Compositor) (edits : List Edit) :
    (c.apply edits).wins = (c.writeAll edits).wins := by
  simp [Compositor.apply]

/-! ## The projection checks (R4, R47, R49) -/

/-- The span of R3 in numbers. -/
theorem WindowRec.coversLine_iff (w : WindowRec) (y : Nat) :
    w.coversLine y = true ↔ w.originY ≤ y ∧ y < w.originY + w.srcHeight * w.vScale.factor := by
  simp [WindowRec.coversLine]

theorem mem_enabledIndices {wins : List WindowRec} {i : Nat} :
    i ∈ enabledIndices wins ↔ ∃ w, wins[i]? = some w ∧ w.enabled = true := by
  simp only [enabledIndices, List.mem_filter, List.mem_range, Option.any_eq_true]
  refine and_iff_right_of_imp ?_
  rintro ⟨w, hw, _⟩
  exact (List.getElem?_eq_some_iff.mp hw).1

/-- Two windows clash where both are enabled, they differ, and they have one priority. -/
theorem clashes_iff {wins : List WindowRec} {i j : Nat} :
    clashes wins i j ↔ i ∈ enabledIndices wins ∧ j ∈ enabledIndices wins ∧
      (j != i && samePriority wins i j) = true := by
  simp only [mem_enabledIndices, clashes, samePriority, Bool.and_eq_true, bne_iff_ne]
  constructor
  · rintro ⟨hne, v, w, hv, hw, hvon, hwon, hp⟩
    exact ⟨⟨v, hv, hvon⟩, ⟨w, hw, hwon⟩, hne.symm, by simp [hv, hw, hp]⟩
  · rintro ⟨⟨v, hv, hvon⟩, ⟨w, hw, hwon⟩, hne, hp⟩
    exact ⟨hne.symm, v, w, hv, hw, hvon, hwon, by simpa [hv, hw] using hp⟩

/-- The first of the enabled windows with a property is the lowest one with it. -/
theorem find?_enabledIndices_of_lowest {wins : List WindowRec} {q : Nat → Bool} {P : Nat → Prop}
    (hP : ∀ i, P i ↔ i ∈ enabledIndices wins ∧ q i = true) {i : Nat} (h : lowest P i) :
    (enabledIndices wins).find? q = some i := by
  obtain ⟨hi, hlow⟩ := h
  have hmem (j : Nat) : P j ↔ (j ∈ List.range wins.length ∧ (wins[j]?).any (·.enabled) = true) ∧ q j = true := by
    rw [hP j, enabledIndices, List.mem_filter]
  obtain ⟨⟨hrange, hon⟩, hq⟩ := (hmem i).mp hi
  unfold enabledIndices
  rw [List.find?_filter, List.find?_range_eq_some]
  refine ⟨by simp [hon, hq], hrange, fun j hj => ?_⟩
  have hnot : ¬ P j := fun hPj => absurd (hlow j hPj) (by omega)
  rw [hmem j] at hnot
  have hjr : j ∈ List.range wins.length := by simp only [List.mem_range] at hrange ⊢; omega
  rw [Bool.not_eq_true', decide_eq_false_iff_not]
  exact fun ⟨hjon, hjq⟩ => hnot ⟨⟨hjr, hjon⟩, hjq⟩

/-- No enabled window has the property. -/
theorem find?_enabledIndices_eq_none {wins : List WindowRec} {q : Nat → Bool} {P : Nat → Prop}
    (hP : ∀ i, P i ↔ i ∈ enabledIndices wins ∧ q i = true) (h : ∀ i, ¬ P i) :
    (enabledIndices wins).find? q = none :=
  List.find?_eq_none.mpr fun i hi hq => h i ((hP i).mpr ⟨hi, hq⟩)

/-- A window takes part in a clash exactly where the first search of `priorityClash` would stop. -/
theorem clashing_iff {wins : List WindowRec} (i : Nat) :
    (∃ j, clashes wins i j) ↔ i ∈ enabledIndices wins ∧
      ((enabledIndices wins).any fun j => j != i && samePriority wins i j) = true := by
  simp only [clashes_iff, List.any_eq_true]
  exact ⟨fun ⟨j, hi, hj, h⟩ => ⟨hi, j, hj, h⟩, fun ⟨hi, j, hj, h⟩ => ⟨j, hi, hj, h⟩⟩

/-- What the first projection check answers of the lowest clash (R49). -/
theorem priorityClash_of_lowest {wins : List WindowRec} {i j : Nat} {w : WindowRec}
    (hi : lowest (fun i => ∃ j, clashes wins i j) i) (hj : lowest (clashes wins i) j) (hw : wins[i]? = some w) :
    priorityClash wins = some (i, j, w.priority.val) := by
  have hion : i ∈ enabledIndices wins := (clashes_iff.mp hj.1).1
  have hfirst := find?_enabledIndices_of_lowest clashing_iff hi
  have hsecond := find?_enabledIndices_of_lowest (q := fun j => j != i && samePriority wins i j)
    (fun j => by rw [clashes_iff, and_iff_right hion]) hj
  simp only [priorityClash, hfirst, hsecond, hw, Option.bind_some, Option.map_some, Option.getD_some]

theorem priorityClash_eq_none_iff {wins : List WindowRec} :
    priorityClash wins = none ↔ ∀ i j, ¬ clashes wins i j := by
  constructor
  · intro h i j hc
    obtain ⟨hion, hiq⟩ := (clashing_iff i).mp ⟨j, hc⟩
    cases hfirst : (enabledIndices wins).find? fun i =>
        (enabledIndices wins).any fun j => j != i && samePriority wins i j with
    | none => exact List.find?_eq_none.mp hfirst i hion hiq
    | some k =>
      have hclashing := List.find?_some hfirst
      obtain ⟨m, hm, hkm⟩ := List.any_eq_true.mp hclashing
      cases hsecond : (enabledIndices wins).find? fun j => j != k && samePriority wins k j with
      | none => exact List.find?_eq_none.mp hsecond m hm hkm
      | some n =>
        simp only [priorityClash, hfirst, hsecond, Option.bind_some, Option.map_some, reduceCtorEq] at h
  · intro h
    simp only [priorityClash, find?_enabledIndices_eq_none clashing_iff fun i ⟨j, hc⟩ => h i j hc, Option.bind_none]

theorem unnamed_iff {wins : List WindowRec} (i : Nat) :
    unnamed wins i ↔ i ∈ enabledIndices wins ∧ ((wins[i]?).any fun w => w.segment.isNone) = true := by
  simp only [unnamed, mem_enabledIndices, Option.any_eq_true, Option.isNone_iff_eq_none]
  constructor
  · rintro ⟨w, hw, hon, hs⟩
    exact ⟨⟨w, hw, hon⟩, w, hw, hs⟩
  · rintro ⟨⟨w, hw, hon⟩, v, hv, hs⟩
    obtain rfl : w = v := Option.some.inj (hw.symm.trans hv)
    exact ⟨w, hw, hon, hs⟩

theorem short_iff {st : Store} {wins : List WindowRec} (i : Nat) :
    short st wins i ↔ i ∈ enabledIndices wins ∧
      ((wins[i]?).any fun w => st.lengthOf w.segment < w.required) = true := by
  simp only [short, mem_enabledIndices, Option.any_eq_true, decide_eq_true_eq]
  constructor
  · rintro ⟨w, hw, hon, hs⟩
    exact ⟨⟨w, hw, hon⟩, w, hw, hs⟩
  · rintro ⟨⟨w, hw, hon⟩, v, hv, hs⟩
    obtain rfl : w = v := Option.some.inj (hw.symm.trans hv)
    exact ⟨w, hw, hon, hs⟩

/-- The peak is where the obligations say it is: `peaksAt` names one line and one load. -/
theorem peakLine_eq_of_peaksAt {wins : List WindowRec} {L m : Nat} (h : peaksAt wins L m) :
    peakLine wins = (L, m) := by
  obtain ⟨hat, hmax, hfirst⟩ := h
  obtain ⟨hpat, hpmax, hpfirst⟩ := peakLine_spec wins
  have hload : (peakLine wins).2 = m :=
    Nat.le_antisymm (hpat ▸ hmax _) (hat ▸ hpmax L)
  have hline : (peakLine wins).1 = L := by
    rcases Nat.lt_trichotomy (peakLine wins).1 L with hlt | heq | hgt
    · have := hfirst _ hlt
      omega
    · exact heq
    · have := hpfirst _ hgt
      omega
  exact Prod.ext hline hload

/-- The peak bounds every line. -/
theorem peakLine_le_iff {wins : List WindowRec} {n : Nat} :
    (peakLine wins).2 ≤ n ↔ ∀ y, lineLoad wins y ≤ n := by
  obtain ⟨hat, hmax, _⟩ := peakLine_spec wins
  exact ⟨fun h y => Nat.le_trans (hmax y) h, fun h => hat ▸ h _⟩

/-- The law of R4 on a table, spelled out. -/
theorem tableFits_iff (wins : List WindowRec) :
    tableFits wins = true ↔ (∀ i j, ¬ clashes wins i j) ∧ ∀ y, lineLoad wins y ≤ 3072 := by
  rw [tableFits, Bool.and_eq_true, Option.isNone_iff_eq_none, priorityClash_eq_none_iff, decide_eq_true_iff,
    peakLine_le_iff]
  rfl

/-- A projection that passes the checks of a commit fits (R47, R49). -/
theorem tableFits_of_projectionRefusal {st : Store} {wins : List WindowRec} (h : projectionRefusal st wins = none) :
    tableFits wins = true := by
  unfold projectionRefusal at h
  split at h
  · cases h
  · next hclash =>
    split at h
    · cases h
    · split at h
      · cases h
      · split at h
        · cases h
        · next hload => simp [tableFits, hclash, Nat.not_lt.mp hload]

/-- A table without an enabled window fits. -/
theorem tableFits_of_disabled {wins : List WindowRec} (h : ∀ w ∈ wins, w.enabled = false) :
    tableFits wins = true := by
  rw [tableFits_iff]
  constructor
  · rintro i j ⟨_, v, _, hv, _, hon, _⟩
    rw [h v (List.mem_of_getElem? hv)] at hon
    cases hon
  · intro y
    have hnone : wins.filter (fun w => w.enabled && w.coversLine y) = [] :=
      List.filter_eq_nil_iff.mpr fun w hw => by simp [h w hw]
    simp [lineLoad, hnone]

/-! ## The refusal a projection gets, check by check (R49) -/

theorem lineLoad_eq_sum (wins : List WindowRec) (y : Nat) :
    lineLoad wins y =
      ((wins.filter fun w => w.enabled ∧ w.originY ≤ y ∧ y < w.originY + w.srcHeight * w.vScale.factor).map
        fun w => (w.srcWidth * w.depth.bits + 7) / 8).sum := by
  unfold lineLoad
  congr 2
  refine List.filter_congr fun w _ => ?_
  rw [Bool.eq_iff_iff]
  simp [WindowRec.coversLine_iff]

theorem Store.lengthOf_of_seg {st : Store} {id : Nat} {g : Segment} (h : st.seg id = some g) :
    st.lengthOf (some id) = g.length := by
  simp [Store.lengthOf, h]

theorem Store.lengthOf_of_missing {st : Store} {id : Nat} (h : st.seg id = none) : st.lengthOf (some id) = 0 := by
  simp [Store.lengthOf, h]

section Refusals

variable {st : Store} {wins : List WindowRec}

theorem projectionRefusal_priorityClash {i j p : Nat} (h : priorityClash wins = some (i, j, p)) :
    projectionRefusal st wins = some (.answer .priorityClash [byte i, byte j, byte p]) := by
  simp [projectionRefusal, h]

theorem projectionRefusal_noSegment {i : Nat} (hclash : ∀ i j, ¬ clashes wins i j) (h : lowest (unnamed wins) i) :
    projectionRefusal st wins = some (.answer .noSegment [byte i]) := by
  simp only [projectionRefusal, priorityClash_eq_none_iff.mpr hclash, find?_enabledIndices_of_lowest unnamed_iff h]

theorem projectionRefusal_segmentShort {i : Nat} {w : WindowRec} (hclash : ∀ i j, ¬ clashes wins i j)
    (hnamed : ∀ i, ¬ unnamed wins i) (h : lowest (short st wins) i) (hw : wins[i]? = some w) :
    projectionRefusal st wins = some (.answer .segmentShort
      (byte i :: be4 w.required ++ be4 (st.lengthOf w.segment))) := by
  simp only [projectionRefusal, priorityClash_eq_none_iff.mpr hclash,
    find?_enabledIndices_eq_none unnamed_iff hnamed, find?_enabledIndices_of_lowest short_iff h, hw,
    Option.map_some, Option.getD_some, Option.bind_some]

theorem projectionRefusal_of_named (hclash : ∀ i j, ¬ clashes wins i j) (hnamed : ∀ i, ¬ unnamed wins i)
    (hlong : ∀ i, ¬ short st wins i) :
    projectionRefusal st wins = if Config.maxLineLoad < (peakLine wins).2 then
      some (.answer .lineLoad (be2 (peakLine wins).1 ++ be2 (peakLine wins).2)) else none := by
  simp only [projectionRefusal, priorityClash_eq_none_iff.mpr hclash,
    find?_enabledIndices_eq_none unnamed_iff hnamed, find?_enabledIndices_eq_none short_iff hlong]

end Refusals

/-- Settles O24: the checks are met one after the other, each search by its lowest hit. -/
theorem projectionChecks : Obligations.ProjectionChecks := by
  refine ⟨rfl, rfl, fun w => ⟨rfl, rfl⟩, lineLoad_eq_sum,
    fun st id => ⟨fun g h => Store.lengthOf_of_seg h, Store.lengthOf_of_missing⟩, fun st wins => ⟨?_, ?_⟩⟩
  · intro i j w hi hj hw
    exact projectionRefusal_priorityClash (priorityClash_of_lowest hi hj hw)
  · refine fun hclash => ⟨fun i h => projectionRefusal_noSegment hclash h, fun hnamed => ⟨?_, fun hlong => ?_⟩⟩
    · exact fun i w h hw => projectionRefusal_segmentShort hclash hnamed h hw
    · rw [projectionRefusal_of_named hclash hnamed hlong]
      constructor
      · intro L m hpeak hover
        rw [peakLine_eq_of_peaksAt hpeak]
        exact if_pos hover
      · exact fun hload => if_neg (Nat.not_lt.mpr (peakLine_le_iff.mpr hload))

/-! ## The picture law (R4, R51) -/

/-- The picture law on the picture alone. -/
def Picture.fits (p : Picture) : Prop :=
  tableFits p.comp.wins = true ∧
    ∀ set, p.cset.scheduled = some set → tableFits (p.comp.writeAll set.edits).wins = true

theorem State.pictureLaw_iff_fits (s : State) : s.pictureLaw = true ↔ s.picture.fits := by
  simp only [State.pictureLaw, Picture.fits, State.picture, Bool.and_eq_true, Option.all_eq_true]

theorem Compositor.reset_wins_disabled : ∀ w ∈ Compositor.reset.wins, w.enabled = false := by
  simp only [Compositor.wins, Compositor.reset, WinSlot.resetAll, List.map_map, List.mem_map]
  rintro _ ⟨i, _, rfl⟩
  rfl

theorem Compositor.reset_fits : tableFits Compositor.reset.wins = true :=
  tableFits_of_disabled Compositor.reset_wins_disabled

/-- A taken commit passed the projection checks, an applied set brings in just the table that was checked, and no other
move touches the window records or the scheduled set but to clear them. -/
theorem Picture.Move.keeps_fits {c : Compositor} {cs : ChangeSet} {st : Store} {p : Picture}
    (m : Picture.Move c cs st p) (h : Picture.fits ⟨c, cs, st⟩) : p.fits := by
  obtain ⟨hactive, hsched⟩ := h
  have cleared (c : Compositor) (cs : ChangeSet) (st : Store) (hc : tableFits c.wins = true)
      (hcs : cs.scheduled = none) : Picture.fits ⟨c, cs, st⟩ := ⟨hc, fun set hset => by simp [hcs] at hset⟩
  cases m with
  | store _ => exact ⟨hactive, hsched⟩
  | blink hw _ _ =>
    refine ⟨hw ▸ hactive, fun set hset => ?_⟩
    rw [Compositor.writeAll_wins_congr hw]
    exact hsched set hset
  | stage _ _ _ => exact ⟨hactive, hsched⟩
  | commit t _ hp =>
    refine ⟨hactive, ?_⟩
    rintro _ ⟨⟩
    exact tableFits_of_projectionRefusal hp
  | discard => exact ⟨hactive, hsched⟩
  | withdraw => exact cleared _ _ _ hactive rfl
  | apply f set hset => exact cleared _ _ _ ((Compositor.apply_wins c set.edits).symm ▸ hsched set hset) rfl
  | soft => exact cleared _ _ _ Compositor.reset_fits rfl
  | hard => exact cleared _ _ _ Compositor.reset_fits rfl

/-- Settles O5: every move of the picture keeps the law, so every step does. -/
theorem pictureLawKept : Obligations.PictureLawKept := by
  refine ⟨fun s => ?_, fun s t hs hstep => ?_⟩
  · simp only [State.pictureLaw_iff_fits, Picture.fits, tableFits_iff, State.picture]
  · rw [State.pictureLaw_iff_fits] at hs ⊢
    exact step_keeps (fun _ _ _ _ => Picture.Move.keeps_fits) hstep hs

end Sys2Proof.Machine

namespace Sys2Proof.Machine

/-! ## Hard reset -/

theorem Compositor.reset_slot (i : Fin 8) :
    Compositor.reset.slots[i.val]? = some { win := WindowRec.reset i, phase := 0, shown := false } := by
  match i with
  | 0 | 1 | 2 | 3 | 4 | 5 | 6 | 7 => rfl

theorem Compositor.reset_palette {p i : Nat} (hp : p < 4) (hi : i < 256) :
    (Compositor.reset.palettes[p]?).bind (·[i]?) = some PalEntry.reset := by
  simp only [Compositor.reset, PalEntry.resetAll, List.getElem?_replicate, hp, hi, if_true, Option.bind_some]

theorem ChannelUnit.get_reset (ch : Chan) : ChannelUnit.reset.get ch = ChanRec.reset := by
  match ch with
  | 0 | 1 | 2 | 3 => rfl

/-- Settles O2: the state is `State.afterHardReset`, and each block there is its chapter's reset value. -/
theorem hardResetValues : Obligations.HardResetValues := by
  refine fun strap s => ⟨{ State.afterHardReset strap with pending := s.pending }, rfl, rfl, rfl, rfl, rfl, ?_, ?_, rfl,
    rfl, rfl, rfl, rfl, ?_, rfl, rfl, rfl, rfl, ?_, rfl⟩
  · exact Compositor.reset_slot
  · exact fun p hp i hi => Compositor.reset_palette hp hi
  · simp only [State.afterHardReset, Store.reset, Config.blockCount]
  · exact ChannelUnit.get_reset

/-! ## Pixel packing (R5) -/

/-- Of a byte shifted left by `k` bits, the `n` most significant bits are the group of `n` bits that `k` bits stand
above. -/
theorem topBits_shiftLeft (b : Byte) {k n : Nat} (h : k + n ≤ 8) :
    (b <<< k).toNat / 2 ^ (8 - n) = b.toNat / 2 ^ (8 - (k + n)) % 2 ^ n := by
  have hwidth : 2 ^ 8 = 2 ^ (8 - k) * 2 ^ k := by rw [← Nat.pow_add]; congr 1; omega
  have hdiv : 2 ^ (8 - n) = 2 ^ k * 2 ^ (8 - (k + n)) := by rw [← Nat.pow_add]; congr 1; omega
  have hkeep : 2 ^ (8 - k) = 2 ^ (8 - (k + n)) * 2 ^ n := by rw [← Nat.pow_add]; congr 1; omega
  calc (b <<< k).toNat / 2 ^ (8 - n)
      = b.toNat * 2 ^ k % 2 ^ 8 / 2 ^ (8 - n) := by rw [BitVec.toNat_shiftLeft, Nat.shiftLeft_eq]
    _ = b.toNat % 2 ^ (8 - k) * 2 ^ k / (2 ^ k * 2 ^ (8 - (k + n))) := by rw [hwidth, Nat.mul_mod_mul_right, hdiv]
    _ = b.toNat % 2 ^ (8 - k) / 2 ^ (8 - (k + n)) := by
      rw [← Nat.div_div_eq_div_mul, Nat.mul_div_cancel _ (Nat.two_pow_pos k)]
    _ = b.toNat / 2 ^ (8 - (k + n)) % 2 ^ n := by rw [hkeep, Nat.mod_mul_right_div_self]

/-- A depth divides the byte into whole groups. -/
theorem Depth.group_fits (d : Depth) (c : Nat) : c % (8 / d.bits) * d.bits + d.bits ≤ 8 := by
  cases d <;> simp only [Depth.bits] <;> omega

/-- The byte a column lies in. -/
theorem Depth.byte_of_column (d : Depth) (c : Nat) : c / (8 / d.bits) = c * d.bits / 8 := by
  cases d <;> simp only [Depth.bits] <;> omega

/-- Settles O12: the division and remainder of `rawValue` pick the same bits as a shift to the top of the byte. -/
theorem rawValuePacking : Obligations.RawValuePacking := by
  intro d row c b hb
  refine ⟨?_, Nat.mod_lt _ (Nat.two_pow_pos _)⟩
  have hbyte : u1 row (c / (8 / d.bits)) = b.toNat := by
    rw [Depth.byte_of_column, u1, hb, Option.getD_some]
  rw [topBits_shiftLeft b (d.group_fits c), rawValue, hbyte, Nat.mul_add, Nat.mul_one, Nat.mul_comm d.bits]

/-! ## Composed lines (R10, R14) -/

theorem clampLane_mem (v : Lane) : 4 ≤ (clampLane v).toNat ∧ (clampLane v).toNat ≤ 1019 := by
  unfold clampLane
  split
  · decide
  · split
    · decide
    · omega

theorem State.composeLine_length (s : State) (y : Nat) (base : List DataWord) :
    (s.composeLine y base).length = base.length :=
  List.length_mapIdx

theorem State.composeLine_getElem? (s : State) (y : Nat) (base : List DataWord) (x : Nat) :
    (s.composeLine y base)[x]? = (base[x]?).map (composePixel s.comp (s.rowFetches y base.length) x) :=
  List.getElem?_mapIdx

/-- Settles O13: a composed line is its base mapped pixel by pixel, and the one clamp bounds both lanes. -/
theorem composedLine : Obligations.ComposedLine := by
  refine fun s y base => ⟨s.composeLine_length y base, fun x pix hx => ⟨?_, ?_⟩⟩
  · rw [s.composeLine_getElem?, hx]
    rfl
  · exact ⟨(clampLane_mem _).1, (clampLane_mem _).2, (clampLane_mem _).1, (clampLane_mem _).2⟩

/-! ## Row fetches (R6, R7, R10) -/

theorem WinSlot.fetched_iff (sl : WinSlot) (y width : Nat) :
    sl.fetched y width = true ↔ sl.shown = true ∧ sl.win.originY ≤ y ∧
      y < sl.win.originY + sl.win.srcHeight * sl.win.vScale.factor ∧ sl.win.originX < width := by
  simp only [WinSlot.fetched, Bool.and_eq_true, decide_eq_true_eq, WindowRec.coversLine_iff, and_assoc]

/-- Going through the values of a key in order, and filtering for each, rearranges the filtered list. -/
theorem flatMap_filter_perm {α : Type} (l : List α) (q : α → Bool) (key : α → Nat) (n : Nat) :
    ((List.range n).flatMap fun p => l.filter fun a => q a && key a == p).Perm
      (l.filter fun a => q a && decide (key a < n)) := by
  induction n with
  | zero => simp
  | succ n ih =>
    rw [List.range_succ, List.flatMap_append, List.flatMap_singleton]
    refine (ih.append_right _).trans ?_
    have hsplit := List.filter_append_perm (fun a => decide (key a < n))
      (l.filter fun a => q a && decide (key a < n + 1))
    rw [List.filter_filter, List.filter_filter] at hsplit
    refine List.Perm.trans (List.Perm.of_eq ?_) hsplit
    congr 1
    all_goals
      refine List.filter_congr fun a _ => Bool.eq_iff_iff.mpr ?_
      simp only [Bool.and_eq_true, Bool.not_eq_true', decide_eq_true_eq, decide_eq_false_iff_not, beq_iff_eq]
    · exact ⟨fun ⟨hq, h⟩ => ⟨h, hq, by omega⟩, fun ⟨h, hq, _⟩ => ⟨hq, h⟩⟩
    · exact ⟨fun ⟨hq, h⟩ => ⟨by omega, hq, by omega⟩, fun ⟨h, hq, h'⟩ => ⟨hq, by omega⟩⟩

/-- The fetch a slot gives on a line. -/
def Store.fetch (st : Store) (y : Nat) (sl : WinSlot) : RowFetch := { win := sl.win, bytes := st.rowBytes sl.win y }

/-- The slots fetched for a line, each once, in the order visited. -/
def State.fetchedSlots (s : State) (y width : Nat) : List WinSlot :=
  (List.range 8).flatMap fun p => s.comp.slots.filter fun sl => sl.fetched y width && sl.win.priority.val == p

theorem State.rowFetches_eq_map (s : State) (y width : Nat) :
    s.rowFetches y width = (s.fetchedSlots y width).map (s.store.fetch y) :=
  (List.map_flatMap ..).symm

theorem State.fetchedSlots_perm (s : State) (y width : Nat) :
    (s.fetchedSlots y width).Perm (s.comp.slots.filter (·.fetched y width)) := by
  refine (flatMap_filter_perm s.comp.slots (·.fetched y width) (·.win.priority.val) 8).trans (List.Perm.of_eq ?_)
  exact List.filter_congr fun sl _ => by simp [sl.win.priority.isLt]

theorem State.fetchedSlots_ascend (s : State) (y width : Nat) :
    (s.fetchedSlots y width).Pairwise fun a b => a.win.priority.val ≤ b.win.priority.val := by
  have hpri (p : Nat) (a : WinSlot)
      (h : a ∈ s.comp.slots.filter fun sl => sl.fetched y width && sl.win.priority.val == p) :
      a.win.priority.val = p := by
    simp only [List.mem_filter, Bool.and_eq_true, beq_iff_eq] at h
    exact h.2.2
  refine List.pairwise_flatMap.mpr ⟨fun p _ => ?_, ?_⟩
  · exact List.pairwise_of_forall_mem_list fun a ha b hb => Nat.le_of_eq ((hpri p a ha).trans (hpri p b hb).symm)
  · refine List.pairwise_lt_range.imp fun hlt a ha b hb => ?_
    rw [hpri _ a ha, hpri _ b hb]
    exact Nat.le_of_lt hlt

/-- Where shown windows differ in priority, so do the fetched ones, in whatever order they stand. -/
theorem State.fetchedSlots_distinct (s : State) (y width : Nat)
    (h : s.comp.slots.Pairwise fun a b => a.shown = true → b.shown = true → a.win.priority ≠ b.win.priority) :
    (s.fetchedSlots y width).Pairwise fun a b => a.win.priority ≠ b.win.priority := by
  rw [(s.fetchedSlots_perm y width).pairwise_iff Ne.symm]
  refine (h.filter _).imp_of_mem fun {a b} ha hb hab => ?_
  simp only [List.mem_filter, WinSlot.fetched_iff] at ha hb
  exact hab ha.2.1 hb.2.1

theorem State.mem_rowFetches (s : State) (y width : Nat) (f : RowFetch) :
    f ∈ s.rowFetches y width ↔ ∃ sl ∈ s.comp.slots, sl.fetched y width = true ∧ f = s.store.fetch y sl := by
  rw [State.rowFetches_eq_map, List.mem_map]
  simp only [(s.fetchedSlots_perm y width).mem_iff, List.mem_filter, and_assoc, eq_comm]

@[simp] theorem segReadBytes_length (m : Memory) (blocks : List Nat) (a n : Nat) :
    (segReadBytes m blocks a n).length = n := by
  simp [segReadBytes]

theorem segReadBytes_getElem? (m : Memory) (blocks : List Nat) (a : Nat) {i n : Nat} (h : i < n) :
    (segReadBytes m blocks a n)[i]? = some (segRead m blocks (a + i)) := by
  simp [segReadBytes, h]

theorem Store.rowBytes_eq {st : Store} {w : WindowRec} {id : Nat} {g : Segment} (hs : w.segment = some id)
    (hg : st.seg id = some g) (y : Nat) :
    st.rowBytes w y = segReadBytes st.mem g.blocks ((y - w.originY) / w.vScale.factor * w.stride) w.stride := by
  simp [Store.rowBytes, hs, hg]

/-- Settles O14: the fetched slots rearrange the filtered table and rise in priority; equal priorities are shut out
where the shown windows have none. -/
theorem rowFetchesOfALine : Obligations.RowFetchesOfALine := by
  refine fun s y width => ⟨?_, fun f => ?_, ?_, fun hdistinct => ?_, fun w id g hs hg => ?_⟩
  · rw [State.rowFetches_eq_map]
    exact (s.fetchedSlots_ascend y width).map _ fun _ _ h => h
  · simp only [s.mem_rowFetches, WinSlot.fetched_iff, and_assoc]
    rfl
  · rw [State.rowFetches_eq_map]
    have hfilter : s.comp.slots.filter (·.fetched y width) = s.comp.slots.filter fun sl => sl.shown ∧
        sl.win.originY ≤ y ∧ y < sl.win.originY + sl.win.srcHeight * sl.win.vScale.factor ∧ sl.win.originX < width :=
      List.filter_congr fun sl _ => by rw [Bool.eq_iff_iff, WinSlot.fetched_iff, decide_eq_true_eq]
    exact hfilter ▸ (s.fetchedSlots_perm y width).map (s.store.fetch y)
  · have hslots : s.comp.slots.Pairwise fun a b => a.shown = true → b.shown = true →
        a.win.priority ≠ b.win.priority :=
      List.pairwise_iff_getElem.mpr fun i j hi hj hij =>
        hdistinct i j _ _ (Nat.ne_of_lt hij) (List.getElem?_eq_getElem hi) (List.getElem?_eq_getElem hj)
    rw [State.rowFetches_eq_map]
    refine List.Pairwise.map _ (fun _ _ h => h)
      (((s.fetchedSlots_ascend y width).and (s.fetchedSlots_distinct y width hslots)).imp ?_)
    exact fun ⟨hle, hne⟩ => Nat.lt_of_le_of_ne hle fun h => hne (Fin.ext h)
  · rw [Store.rowBytes_eq hs hg]
    exact ⟨segReadBytes_length .., fun i hi => segReadBytes_getElem? _ _ _ hi⟩

end Sys2Proof.Machine

namespace Sys2Proof.Machine

/-! ## Shown decisions and blink phases (R16, R18, R19) -/

theorem LockState.composed_iff (l : LockState) :
    l.composed = true ↔ l = .locked ∨ l = .holdover ∨ l = .rejoining := by
  cases l <;> simp [LockState.composed]

theorem ShowCond.admits_always_iff (l : LockState) :
    ShowCond.always.admits l = true ↔ l = .locked ∨ l = .holdover ∨ l = .rejoining :=
  l.composed_iff

theorem ShowCond.admits_signal_iff (l : LockState) : ShowCond.signal.admits l = true ↔ l = .locked := by
  simp [ShowCond.admits]

theorem ShowCond.admits_noSignal_iff (l : LockState) :
    ShowCond.noSignal.admits l = true ↔ l = .holdover ∨ l = .rejoining := by
  cases l <;> simp [ShowCond.admits, LockState.composed]

theorem WindowRec.blinks_iff (w : WindowRec) : w.blinks = true ↔ w.blinkOn ≠ 0 ∧ w.blinkOff ≠ 0 := by
  simp [WindowRec.blinks]

theorem WinSlot.shownIn_iff (sl : WinSlot) (l : LockState) :
    sl.shownIn l = true ↔ sl.win.enabled = true ∧ sl.win.cond.admits l = true ∧
      (¬ (sl.win.blinkOn ≠ 0 ∧ sl.win.blinkOff ≠ 0) ∨ sl.phase < sl.win.blinkOn) := by
  rw [← WindowRec.blinks_iff]
  simp only [WinSlot.shownIn, Bool.and_eq_true, Bool.or_eq_true, Bool.not_eq_true', decide_eq_true_eq, and_assoc,
    Bool.not_eq_true]

theorem WinSlot.nextPhase_of_steady {sl : WinSlot} (l : LockState)
    (h : ¬ (sl.win.blinkOn ≠ 0 ∧ sl.win.blinkOff ≠ 0)) : sl.nextPhase l = 0 := by
  rw [← WindowRec.blinks_iff] at h
  simp [WinSlot.nextPhase, h]

theorem WinSlot.nextPhase_of_uncomposed {sl : WinSlot} {l : LockState}
    (h : sl.win.blinkOn ≠ 0 ∧ sl.win.blinkOff ≠ 0) (hl : ¬ (l = .locked ∨ l = .holdover ∨ l = .rejoining)) :
    sl.nextPhase l = sl.phase := by
  rw [← WindowRec.blinks_iff] at h
  rw [← LockState.composed_iff] at hl
  simp [WinSlot.nextPhase, h, hl]

theorem WinSlot.nextPhase_of_composed {sl : WinSlot} {l : LockState}
    (h : sl.win.blinkOn ≠ 0 ∧ sl.win.blinkOff ≠ 0) (hl : l = .locked ∨ l = .holdover ∨ l = .rejoining) :
    sl.nextPhase l = if sl.phase + 1 = sl.win.blinkOn + sl.win.blinkOff then 0 else sl.phase + 1 := by
  rw [← WindowRec.blinks_iff] at h
  rw [← LockState.composed_iff] at hl
  simp [WinSlot.nextPhase, h, hl]

/-- A slot after an output frame head with no edit. -/
def WinSlot.atHead (sl : WinSlot) (lock : LockState) : WinSlot :=
  { win := sl.win, phase := sl.nextPhase lock,
    shown := WinSlot.shownIn { sl with phase := sl.nextPhase lock } lock }

theorem Compositor.atHead_getElem? (c : Compositor) (lock : LockState) (i : Nat) :
    (c.atHead lock).slots[i]? = (c.slots[i]?).map (·.atHead lock) := by
  simp only [Compositor.atHead, Compositor.decideShown, List.getElem?_map, Option.map_map]
  rfl

/-- Settles O15: the slot after a head is `WinSlot.atHead`; its phase and shown decision are those of R18 and R19. -/
theorem headDecision : Obligations.HeadDecision := by
  intro c lock i sl hsl composed blinking
  refine ⟨rfl, sl.atHead lock, by rw [Compositor.atHead_getElem?, hsl]; rfl, rfl,
    sl.nextPhase_of_steady lock, WinSlot.nextPhase_of_uncomposed,
    fun hb hc hlast => (WinSlot.nextPhase_of_composed hb hc).trans (if_pos hlast),
    fun hb hc hlast => (WinSlot.nextPhase_of_composed hb hc).trans (if_neg hlast), ?_⟩
  refine (WinSlot.shownIn_iff _ _).trans ?_
  show _ ∧ sl.win.cond.admits lock = true ∧ _ ↔ _
  cases sl.win.cond with
  | always => rw [ShowCond.admits_always_iff]; rfl
  | signal => rw [ShowCond.admits_signal_iff]; rfl
  | noSignal => rw [ShowCond.admits_noSignal_iff]; rfl

/-! ## Applications (R17, R18, R26, R31) -/

/-- The phases of a table, by index. -/
def Compositor.phases (c : Compositor) : List Nat := c.slots.map (·.phase)

theorem setWin_phases (slots : List WinSlot) (i : Nat) (f : WindowRec → WindowRec) :
    (setWin slots i f).map (·.phase) = slots.map (·.phase) :=
  map_modify_of_eq (·.phase) (fun sl => { sl with win := f sl.win }) (fun _ => rfl) slots i

/-- No edit writes a phase; that is left to the restart after them (R18). -/
theorem Compositor.write_phases (c : Compositor) (e : Edit) : (c.write e).phases = c.phases := by
  cases e with
  | winStage i w => exact setWin_phases c.slots i fun _ => w
  | winPlace i x y => exact setWin_phases c.slots i fun w => { w with originX := x, originY := y }
  | winShow i on => exact setWin_phases c.slots i fun w => { w with enabled := on }
  | palStage => rfl
  | fillStage => rfl

theorem Compositor.write_latch (c : Compositor) (e : Edit) : (c.write e).latch = c.latch := by
  cases e <;> rfl

theorem Compositor.writeAll_append (c : Compositor) (edits : List Edit) (e : Edit) :
    c.writeAll (edits ++ [e]) = (c.writeAll edits).write e :=
  List.foldl_append

theorem Compositor.writeAll_phases (c : Compositor) (edits : List Edit) : (c.writeAll edits).phases = c.phases := by
  induction edits generalizing c with
  | nil => rfl
  | cons e es ih => exact (ih (c.write e)).trans (c.write_phases e)

theorem Compositor.writeAll_latch (c : Compositor) (edits : List Edit) : (c.writeAll edits).latch = c.latch := by
  induction edits generalizing c with
  | nil => rfl
  | cons e es ih => exact (ih (c.write e)).trans (c.write_latch e)

theorem writeRun_getElem? (pal : List PalEntry) (first : Nat) (entries : List PalEntry) (i : Nat) :
    (writeRun pal first entries)[i]? =
      (pal[i]?).map fun e => if first ≤ i then (entries[i - first]?).getD e else e :=
  List.getElem?_mapIdx

/-- What an entry is after a run of entries is written (R26). -/
theorem Compositor.write_palStage_entry (c : Compositor) (p first : Nat) (entries : List PalEntry) {q i : Nat}
    {e : PalEntry} (h : (c.palettes[q]?).bind (·[i]?) = some e) :
    ((c.write (.palStage p first entries)).palettes[q]?).bind (·[i]?) =
      some (if p = q ∧ first ≤ i then (entries[i - first]?).getD e else e) := by
  obtain ⟨pal, hpal, he⟩ := Option.bind_eq_some_iff.mp h
  simp only [Compositor.write, List.getElem?_modify, hpal]
  by_cases hpq : p = q
  · simp [hpq, writeRun_getElem?, he]
  · simp [hpq, he]

/-- An edit touches the windows that a WIN_STAGE, WIN_PLACE or WIN_SHOW of it names (R17). -/
theorem any_touches_iff (edits : List Edit) (i : Nat) :
    edits.any (·.touches i) = true ↔
      (∃ w, .winStage i w ∈ edits) ∨ (∃ x y, .winPlace i x y ∈ edits) ∨ ∃ on, .winShow i on ∈ edits := by
  rw [List.any_eq_true]
  constructor
  · rintro ⟨e, he, ht⟩
    cases e with
    | winStage j w => obtain rfl : i = j := by simpa [Edit.touches] using ht
                      exact .inl ⟨w, he⟩
    | winPlace j x y => obtain rfl : i = j := by simpa [Edit.touches] using ht
                        exact .inr (.inl ⟨x, y, he⟩)
    | winShow j on => obtain rfl : i = j := by simpa [Edit.touches] using ht
                      exact .inr (.inr ⟨on, he⟩)
    | palStage => cases ht
    | fillStage => cases ht
  · rintro (⟨w, h⟩ | ⟨x, y, h⟩ | ⟨on, h⟩)
    all_goals exact ⟨_, h, by simp [Edit.touches]⟩

/-- The phase of a window after an application: 0 where an edit touches it, else as it was (R18). -/
theorem Compositor.apply_phase (c : Compositor) (edits : List Edit) (i : Nat) :
    ((c.apply edits).slots[i]?).map (·.phase) =
      (c.phases[i]?).map fun n => if edits.any (·.touches i) then 0 else n := by
  rw [← c.writeAll_phases edits]
  simp only [Compositor.apply, Compositor.decideShown, Compositor.restartTouched, Compositor.phases, List.getElem?_map,
    List.getElem?_mapIdx, Option.map_map]
  refine congrArg (Option.map · _) (funext fun sl => ?_)
  simp only [Function.comp_apply]
  split <;> rfl

/-- Every slot's shown decision after an application is made afresh, under the latch there was (R19). -/
theorem Compositor.apply_shown (c : Compositor) (edits : List Edit) {sl : WinSlot} (h : sl ∈ (c.apply edits).slots) :
    sl.shown = sl.shownIn c.latch := by
  obtain ⟨sl', _, rfl⟩ := List.mem_map.mp h
  show sl'.shownIn (c.writeAll edits).latch = sl'.shownIn c.latch
  rw [c.writeAll_latch]

/-- Settles O16: an edit modifies one place of one table; an application writes all, restarts the touched phases, and
decides anew. -/
theorem applicationWrites : Obligations.ApplicationWrites := by
  have modified (l : List WindowRec) (f : WindowRec → WindowRec) (i j : Nat) :
      (l.modify i f)[j]? = if i = j then (l[j]?).map f else l[j]? := by
    rw [List.getElem?_modify]
    split <;> simp
  refine fun c => ⟨rfl, ?_, ?_, ?_, ?_, fun _ => rfl, fun _ _ => ⟨rfl, rfl⟩, fun _ _ _ => ⟨rfl, rfl⟩,
    fun _ _ => ⟨rfl, rfl⟩, fun _ _ _ => ⟨rfl, rfl⟩, fun _ => ⟨rfl, rfl⟩, rfl, c.writeAll_append, fun edits =>
    ⟨c.apply_wins edits, rfl, rfl, c.writeAll_latch edits, fun i sl hsl => ?_, fun sl hmem => ?_⟩⟩
  · exact fun i w j => by rw [Compositor.write_winStage_wins, modified]
  · exact fun i x y j => by rw [Compositor.write_winPlace_wins, modified]
  · exact fun i on j => by rw [Compositor.write_winShow_wins, modified]
  · exact fun p first entries q i e h => c.write_palStage_entry p first entries h
  · have hphase : c.phases[i]? = some sl.phase := by rw [Compositor.phases, List.getElem?_map, hsl]; rfl
    rw [c.apply_phase, hphase, ← any_touches_iff]
    exact ⟨fun ht => by simp [ht], fun ht => by simp [ht]⟩
  · rw [c.apply_shown edits hmem, WinSlot.shownIn_iff]
    have hblink : ¬ (sl.win.blinkOn ≠ 0 ∧ sl.win.blinkOff ≠ 0) ∨ sl.phase < sl.win.blinkOn ↔
        sl.win.blinkOn = 0 ∨ sl.win.blinkOff = 0 ∨ sl.phase < sl.win.blinkOn := by omega
    rw [hblink]
    cases sl.win.cond with
    | always => rw [ShowCond.admits_always_iff]
    | signal => rw [ShowCond.admits_signal_iff]
    | noSignal => rw [ShowCond.admits_noSignal_iff]

end Sys2Proof.Machine

namespace Sys2Proof.Machine

/-! ## A message that is accepted: from its arrival to its answer -/

/-- The state in which the owner of an accepted message finds the part: the channel idle with the message's sequence as
its last, and a reservation held (R149, R150). -/
def State.accepting (u : State) (ch : Chan) (seq : SeqNo) : State :=
  ((u.dropAssembly ch).reserve ch).advance ch seq

@[simp] theorem State.accepting_comp (u : State) (ch : Chan) (seq : SeqNo) : (u.accepting ch seq).comp = u.comp := rfl

theorem State.genericRefusal_eq_none {u : State} {k : Kind} {ch : Chan} {p : List Byte}
    (hch : k.onChannel ch = true) (hlen : k.lengthAllowed p = true) (hreset : u.status.resetting = none) :
    u.genericRefusal k.code ch p = none := by
  simp [State.genericRefusal, hch, hlen, hreset]

/-- A message in sequence that passes the generic checks is carried out by its owner (R143, R149 to R151). -/
theorem State.receive_accepted {u : State} {k : Kind} {ch : Chan} {seq : SeqNo} {p : List Byte}
    (hready : u.readyFor ch seq) (hk : k ≠ .resync) (hch : k.onChannel ch = true) (hlen : k.lengthAllowed p = true)
    (hp : p.length ≤ 8192) :
    u.receive k ch seq p = ((u.accepting ch seq).dispatch k ch p).1.carryOut ch seq k.code
      ((u.accepting ch seq).dispatch k ch p).2 := by
  obtain ⟨hlines, hidle, hseq, hroom, hreset⟩ := hready
  rw [u.receive_of_next ch seq p hk hlines hidle hseq hp,
    u.complete_accepted k ch seq p (decide_eq_true hroom)
      (State.genericRefusal_eq_none hch hlen hreset)]
  rfl

/-- An answer from the state an owner finds is the answer of the statements: the reservation is used up. -/
theorem State.accepting_answerWith (u : State) (ch : Chan) (seq : SeqNo) (kind : Byte) (code : Code)
    (payload : List Byte) :
    (u.accepting ch seq).answerWith ch seq kind code payload false = u.answered ch seq kind code payload := by
  have hpacket : (u.accepting ch seq).packet ch seq kind code payload = u.packet ch seq kind code payload := rfl
  simp only [State.answerWith, hpacket]
  simp [State.accepting, State.setChan, State.fillReserved, State.reserve, State.advance, State.dropAssembly,
    State.chan, State.answered, State.queued, ChanRec.answered, PacketUnit.fill]

/-- A message whose owner only answers changes nothing but for its answer. -/
theorem State.receive_answered {u : State} {k : Kind} {ch : Chan} {seq : SeqNo} {p payload : List Byte} {code : Code}
    (hready : u.readyFor ch seq) (hk : k ≠ .resync) (hch : k.onChannel ch = true) (hlen : k.lengthAllowed p = true)
    (hp : p.length ≤ 8192)
    (howner : (u.accepting ch seq).dispatch k ch p = (u.accepting ch seq, .answer code payload)) :
    u.receive k ch seq p = u.answered ch seq k.code code payload := by
  rw [State.receive_accepted hready hk hch hlen hp, howner]
  exact u.accepting_answerWith ch seq k.code code payload

/-! ## QUERY_WINDOW and QUERY_PALETTE (R22, R33) -/

theorem Compositor.palEntry_eq {c : Compositor} {q : Fin 4} {i : Nat} {pal : List PalEntry} {e : PalEntry}
    (hpal : c.palettes[q.val]? = some pal) (he : pal[i]? = some e) : c.palEntry q i = e := by
  simp [Compositor.palEntry, hpal, he]

theorem firstBad_eq_none {checks : List (Nat × Bool)} (h : ∀ c ∈ checks, c.2 = true) : firstBad checks = none := by
  rw [firstBad, List.find?_eq_none.mpr fun c hc => by simp [h c hc]]
  rfl

theorem State.takeQueryWindow_answers {v : State} {p : List Byte} {sl : WinSlot} (hindex : u1 p 0 ≤ 7)
    (hsl : v.comp.slots[u1 p 0]? = some sl) :
    v.takeQueryWindow p =
      (v, .answer .ok (windowBytes (u1 p 0) sl.win ++ be2 sl.phase ++ [if sl.shown then 1 else 0])) := by
  have hchecks : firstBad (queryWindowChecks p) = none :=
    firstBad_eq_none (by simp [queryWindowChecks, Nat.lt_succ_of_le hindex])
  simp only [State.takeQueryWindow, hchecks, hsl, boolByte]

theorem State.takeQueryPalette_answers {v : State} {p : List Byte} (hlen : p.length = 5) (hpal : u1 p 0 ≤ 3)
    (hfirst : u2 p 1 ≤ 255) (hpos : 1 ≤ u2 p 3) (hcount : u2 p 3 ≤ 120) (hend : u2 p 1 + u2 p 3 ≤ 256) :
    v.takeQueryPalette p =
      (v, .answer .ok (p ++ ((List.range (u2 p 3)).flatMap fun k =>
          palEntryBytes (v.comp.palEntry (Fin.ofNat 4 (u1 p 0)) (u2 p 1 + k)))
        ++ (be2 v.comp.fill.y.toNat ++ be2 v.comp.fill.cb.toNat ++ be2 v.comp.fill.cr.toNat))) := by
  have hchecks : firstBad (queryPaletteChecks p) = none :=
    firstBad_eq_none (by
      simp [queryPaletteChecks, Nat.lt_succ_of_le hpal, Nat.lt_succ_of_le hfirst, hpos, hcount, hend])
  simp only [State.takeQueryPalette, hchecks, colourBytes, List.take_of_length_le (Nat.le_of_eq hlen)]

/-- Settles O58: both queries are accepted, and their owners answer from the tables and change nothing. -/
theorem windowAndPaletteQueried : Obligations.WindowAndPaletteQueried := by
  refine ⟨fun c q i pal e => Compositor.palEntry_eq, ?_⟩
  intro s seq p u hready
  constructor
  · intro sl hlen hindex hsl
    exact congrArg Host.Outcome.next (State.receive_answered (k := .queryWindow) hready (by decide) rfl
      (by simp [Kind.lengthAllowed, hlen]) (by omega)
      (State.takeQueryWindow_answers (v := u.accepting 0 seq) hindex hsl))
  · intro hlen hpal hfirst hpos hcount hend
    exact congrArg Host.Outcome.next (State.receive_answered (k := .queryPalette) hready (by decide) rfl
      (by simp [Kind.lengthAllowed, hlen]) (by omega)
      (State.takeQueryPalette_answers (v := u.accepting 0 seq) hlen hpal hfirst hpos hcount hend))

end Sys2Proof.Machine

namespace Sys2Proof.Machine

/-! ## Table sizes (R1, R24) -/

/-- The sizes of R1 and R24: the number of records, and the length of each palette. -/
def Compositor.sized (c : Compositor) : Prop :=
  c.wins.length = 8 ∧ c.palettes.map List.length = List.replicate 4 256

theorem State.tableLaw_iff (s : State) : s.tableLaw = true ↔
    s.comp.slots.length = 8 ∧ s.comp.palettes.length = 4 ∧ ∀ pal ∈ s.comp.palettes, pal.length = 256 := by
  simp [State.tableLaw, and_assoc]

theorem State.tableLaw_iff_sized (s : State) : s.tableLaw = true ↔ s.comp.sized := by
  rw [State.tableLaw_iff, Compositor.sized, List.eq_replicate_iff]
  simp [Compositor.wins]

theorem Compositor.write_sized {c : Compositor} (h : c.sized) (e : Edit) : (c.write e).sized := by
  obtain ⟨hwins, hpals⟩ := h
  cases e with
  | winStage i w => exact ⟨by simpa using hwins, hpals⟩
  | winPlace i x y => exact ⟨by simpa using hwins, hpals⟩
  | winShow i on => exact ⟨by simpa using hwins, hpals⟩
  | palStage p first entries =>
    have hrun (pal : List PalEntry) : (writeRun pal first entries).length = pal.length := List.length_mapIdx
    exact ⟨hwins, (map_modify_of_eq List.length _ hrun c.palettes p).trans hpals⟩
  | fillStage colour => exact ⟨hwins, hpals⟩

theorem Compositor.writeAll_sized {c : Compositor} (h : c.sized) (edits : List Edit) : (c.writeAll edits).sized := by
  induction edits generalizing c with
  | nil => exact h
  | cons e es ih => exact ih (c.write_sized h e)

theorem Compositor.reset_sized : Compositor.reset.sized := by
  refine ⟨rfl, ?_⟩
  simp only [Compositor.reset, PalEntry.resetAll, List.map_replicate, List.length_replicate]

/-- No move adds or removes a window, a palette or an entry. -/
theorem Picture.Move.keeps_sized {c : Compositor} {cs : ChangeSet} {st : Store} {p : Picture}
    (m : Picture.Move c cs st p) (h : c.sized) : p.comp.sized := by
  cases m with
  | blink hw hp _ => exact ⟨hw ▸ h.1, hp ▸ h.2⟩
  | apply f set _ =>
    obtain ⟨hwins, hpals⟩ := c.writeAll_sized h set.edits
    exact ⟨(c.apply_wins set.edits).symm ▸ hwins, hpals⟩
  | soft => exact Compositor.reset_sized
  | hard => exact Compositor.reset_sized
  | store _ => exact h
  | stage _ _ _ => exact h
  | commit _ _ _ => exact h
  | discard => exact h
  | withdraw => exact h

/-! ## Bounds of the sets (R35) -/

theorem setFits_iff (edits : List Edit) :
    setFits edits = true ↔ edits.length ≤ 32 ∧ stagedBytes edits ≤ 8192 := by
  rw [setFits, Bool.and_eq_true, decide_eq_true_iff, decide_eq_true_iff]
  rfl

theorem setFits_append {edits : List Edit} {e : Edit} (hn : edits.length < Config.maxEdits)
    (hb : stagedBytes edits + e.bytes ≤ Config.maxStagedBytes) : setFits (edits ++ [e]) = true := by
  simp only [setFits, stagedBytes, List.length_append, List.length_singleton, List.map_append, List.map_cons,
    List.map_nil, List.sum_append, List.sum_cons, List.sum_nil, Nat.add_zero, Bool.and_eq_true, decide_eq_true_eq]
  exact ⟨hn, hb⟩

/-- Both sets fit the bounds of the open set. -/
def ChangeSet.fits (cs : ChangeSet) : Prop :=
  setFits cs.openSet = true ∧ ∀ set, cs.scheduled = some set → setFits set.edits = true

theorem State.setLaw_iff_fits (s : State) : s.setLaw = true ↔ s.cset.fits := by
  simp only [State.setLaw, ChangeSet.fits, Bool.and_eq_true, Option.all_eq_true]

theorem ChangeSet.fits_of_scheduled_none {cs : ChangeSet} (ho : setFits cs.openSet = true)
    (hs : cs.scheduled = none) : cs.fits :=
  ⟨ho, fun set hset => by simp [hs] at hset⟩

/-- An edit is staged only where there is room, and a commit hands a set over whole. -/
theorem Picture.Move.keeps_setFits {c : Compositor} {cs : ChangeSet} {st : Store} {p : Picture}
    (m : Picture.Move c cs st p) (h : cs.fits) : p.cset.fits := by
  obtain ⟨hopen, hsched⟩ := h
  cases m with
  | stage e hn hb => exact ⟨setFits_append hn hb, hsched⟩
  | commit t _ _ =>
    refine ⟨rfl, ?_⟩
    rintro _ ⟨⟩
    exact hopen
  | discard => exact ⟨rfl, hsched⟩
  | withdraw => exact ChangeSet.fits_of_scheduled_none hopen rfl
  | apply f set _ => exact ChangeSet.fits_of_scheduled_none hopen rfl
  | soft => exact ChangeSet.fits_of_scheduled_none rfl rfl
  | hard => exact ChangeSet.fits_of_scheduled_none rfl rfl
  | store _ => exact ⟨hopen, hsched⟩
  | blink _ _ _ => exact ⟨hopen, hsched⟩

end Sys2Proof.Machine

namespace Sys2Proof.Machine

/-! ## The reset mark (R187, R188)

How many marked entries the queue holds, what each operation of the part does to that number and to RESETTING, and the
law that ties the two. -/

/-- The marked entries of the queue. -/
def PacketUnit.marks (q : PacketUnit) : Nat := (q.filled.filter fun e => e.marked).length

/-- A packet that joins the queue is one more marked entry where it is marked. -/
@[simp] theorem PacketUnit.fill_marks (q : PacketUnit) (packet : List Byte) (marked : Bool) :
    (q.fill packet marked).marks = q.marks + marked.toNat := by
  cases marked <;> simp [PacketUnit.marks]

@[simp] theorem PacketUnit.marks_reserved (q : PacketUnit) (chs : List Chan) :
    ({ q with reserved := chs } : PacketUnit).marks = q.marks := rfl

theorem State.markLaw_iff (s : State) : s.markLaw = true ↔ s.pkt.marks = s.status.resetting.isSome.toNat := by
  cases h : s.status.resetting <;> simp [State.markLaw, PacketUnit.marks, h]

/-- Where the queue holds no marked entry, a part that is not RESETTING has the law. -/
theorem State.markLaw_of_none {s : State} (hm : s.pkt.marks = 0) (hr : s.status.resetting = none) :
    s.markLaw = true := by
  rw [State.markLaw_iff, hm, hr]
  rfl

/-- If the mark law holds of `s`, it holds of `t`. -/
def State.KeepsMark (s t : State) : Prop := s.markLaw = true → t.markLaw = true

namespace State.KeepsMark

theorem refl (s : State) : s.KeepsMark s := id

theorem trans {s t u : State} (h : s.KeepsMark t) (k : t.KeepsMark u) : s.KeepsMark u := fun hs => k (h hs)

/-- An operation that leaves the number of marked entries and RESETTING alone. -/
theorem same {s t : State} (hm : t.pkt.marks = s.pkt.marks) (hr : t.status.resetting = s.status.resetting) :
    s.KeepsMark t := by
  intro hs
  rw [State.markLaw_iff] at hs ⊢
  rw [hm, hr, hs]

/-- What the law keeps from `t` on it keeps from a state `s` with as many marked entries and the same RESETTING. -/
theorem after {s t u : State} (k : t.KeepsMark u) (hm : t.pkt.marks = s.pkt.marks)
    (hr : t.status.resetting = s.status.resetting) : s.KeepsMark u :=
  (same hm hr).trans k

/-- What each step of a fold keeps, the fold keeps. -/
theorem foldl {α : Type} {g : State → α → State} (h : ∀ (s : State) (a : α), s.KeepsMark (g s a)) (l : List α)
    (s : State) : s.KeepsMark (l.foldl g s) := by
  induction l generalizing s with
  | nil => exact refl s
  | cons a as ih => exact (h s a).trans (ih _)

end State.KeepsMark

/-! ### The response queue -/

theorem State.offer_keepsMark (s : State) (packet : List Byte) : s.KeepsMark (s.offer packet) := by
  unfold State.offer
  split
  · exact .same (by simp) rfl
  · exact .refl s

theorem State.offerNotice_keepsMark (s : State) (k : NoticeKind) (data : List Byte) :
    s.KeepsMark (s.offerNotice k data) := by
  rcases s.offerNotice_cases k data with ⟨_, _, h⟩ | ⟨_, _, h⟩ | ⟨_, h⟩
  · rw [h]; exact .same (by simp) rfl
  · rw [h]; exact .same rfl rfl
  · rw [h]; exact .refl s

theorem State.refuseFragment_keepsMark (s : State) (f : Fragment) (code : Code) (payload : List Byte) :
    s.KeepsMark (s.refuseFragment f code payload) :=
  s.offer_keepsMark _

theorem State.fillReserved_keepsMark (s : State) (ch : Chan) (packet : List Byte) :
    s.KeepsMark (s.fillReserved ch packet false) :=
  .same (by simp) rfl

theorem State.answerWith_keepsMark (s : State) (ch : Chan) (seq : SeqNo) (kind : Byte) (code : Code)
    (payload : List Byte) : s.KeepsMark (s.answerWith ch seq kind code payload false) :=
  .same (by simp) rfl

/-! ### The owners: the one reply that is marked is PART_RESET's, and with it the part is RESETTING -/

/-- The reply is one whose response the Status Unit marks (R187). -/
def Reply.isMarked : Reply → Bool
  | .answer _ _ => false
  | .queued => false
  | .marked _ => true

theorem State.stage_isMarked (s : State) (e : Edit) : (s.stage e).2.isMarked = false := by
  unfold State.stage
  split <;> rfl

theorem Store.segmentRefusal_isMarked {st : Store} {segment : Option Nat} {r : Reply}
    (h : st.segmentRefusal segment = some r) : r.isMarked = false := by
  unfold Store.segmentRefusal at h
  split at h
  · cases h
  · split at h
    · cases h; rfl
    · split at h <;> cases h <;> rfl

theorem State.takeWinStage_isMarked (s : State) (p : List Byte) : (s.takeWinStage p).2.isMarked = false := by
  unfold State.takeWinStage
  split
  · rfl
  · simp only []
    split
    · next h => exact Store.segmentRefusal_isMarked h
    · split
      · rfl
      · exact s.stage_isMarked _

theorem State.targetRefusal_isMarked {s : State} {t : Target} {r : Reply} (h : s.targetRefusal t = some r) :
    r.isMarked = false := by
  unfold State.targetRefusal at h
  split at h
  · cases h
  · simp only [] at h
    split at h
    · cases h; rfl
    · split at h <;> cases h; rfl

theorem projectionRefusal_isMarked {st : Store} {wins : List WindowRec} {r : Reply}
    (h : projectionRefusal st wins = some r) : r.isMarked = false := by
  unfold projectionRefusal at h
  repeat' split at h
  all_goals cases h
  all_goals rfl

theorem State.takeSetCommit_isMarked (s : State) (p : List Byte) : (s.takeSetCommit p).2.isMarked = false := by
  unfold State.takeSetCommit
  split
  · rfl
  · split
    · rfl
    · split
      · rfl
      · split
        · next h => exact State.targetRefusal_isMarked h
        · split
          · next h => exact projectionRefusal_isMarked h
          · rfl

theorem State.takeSegCreate_isMarked (s : State) (p : List Byte) : (s.takeSegCreate p).2.isMarked = false := by
  unfold State.takeSegCreate
  simp only []
  repeat' split
  all_goals rfl

theorem State.takeSegDelete_isMarked (s : State) (p : List Byte) : (s.takeSegDelete p).2.isMarked = false := by
  unfold State.takeSegDelete
  repeat' split
  all_goals rfl

theorem State.takeSegWrite_isMarked (s : State) (ch : Chan) (p : List Byte) :
    (s.takeSegWrite ch p).2.isMarked = false := by
  unfold State.takeSegWrite
  simp only []
  repeat' split
  all_goals rfl

theorem State.takeSegClose_isMarked (s : State) (ch : Chan) (p : List Byte) :
    (s.takeSegClose ch p).2.isMarked = false := by
  unfold State.takeSegClose
  simp only []
  repeat' split
  all_goals rfl

theorem State.takeQueryWindow_isMarked (s : State) (p : List Byte) : (s.takeQueryWindow p).2.isMarked = false := by
  unfold State.takeQueryWindow
  repeat' split
  all_goals rfl

/-- No owner but that of PART_RESET replies with a marked OK. -/
theorem State.dispatch_isMarked (s : State) {k : Kind} (h : k ≠ .partReset) (ch : Chan) (p : List Byte) :
    (s.dispatch k ch p).2.isMarked = false := by
  cases k with
  | winStage => exact s.takeWinStage_isMarked p
  | winPlace =>
    show (s.takeWinPlace p).2.isMarked = false
    unfold State.takeWinPlace; split
    · rfl
    · exact s.stage_isMarked _
  | winShow =>
    show (s.takeWinShow p).2.isMarked = false
    unfold State.takeWinShow; split
    · rfl
    · exact s.stage_isMarked _
  | palStage =>
    show (s.takePalStage p).2.isMarked = false
    unfold State.takePalStage; split
    · rfl
    · exact s.stage_isMarked _
  | fillStage =>
    show (s.takeFillStage p).2.isMarked = false
    unfold State.takeFillStage; split
    · rfl
    · exact s.stage_isMarked _
  | setCommit => exact s.takeSetCommit_isMarked p
  | setDiscard => show (s.takeSetDiscard p).2.isMarked = false; unfold State.takeSetDiscard; split <;> rfl
  | setWithdraw => show (s.takeSetWithdraw p).2.isMarked = false; unfold State.takeSetWithdraw; split <;> rfl
  | segCreate => exact s.takeSegCreate_isMarked p
  | segWrite => exact s.takeSegWrite_isMarked ch p
  | segClose => exact s.takeSegClose_isMarked ch p
  | segDelete => exact s.takeSegDelete_isMarked p
  | queryStatus => show (s.takeQueryStatus p).2.isMarked = false; unfold State.takeQueryStatus; split <;> rfl
  | queryWindow => exact s.takeQueryWindow_isMarked p
  | queryPalette => show (s.takeQueryPalette p).2.isMarked = false; unfold State.takeQueryPalette; split <;> rfl
  | querySegment => show (s.takeQuerySegment p).2.isMarked = false; unfold State.takeQuerySegment; split <;> rfl
  | queryDirectory => rfl
  | paramSet => show (s.takeParamSet p).2.isMarked = false; unfold State.takeParamSet; split <;> rfl
  | paramQuery => show (s.takeParamQuery p).2.isMarked = false; unfold State.takeParamQuery; split <;> rfl
  | partReset => exact absurd rfl h
  | resync => rfl

theorem State.takeQueryStatus_resetting (s : State) (p : List Byte) :
    (s.takeQueryStatus p).1.status.resetting = s.status.resetting := by
  unfold State.takeQueryStatus
  split
  · rfl
  · simp only []
    split <;> rfl

theorem State.takeParamSet_resetting (s : State) (p : List Byte) :
    (s.takeParamSet p).1.status.resetting = s.status.resetting := by
  unfold State.takeParamSet
  split <;> rfl

/-- No owner but that of PART_RESET changes RESETTING. -/
theorem State.dispatch_resetting (s : State) {k : Kind} (h : k ≠ .partReset) (ch : Chan) (p : List Byte) :
    (s.dispatch k ch p).1.status.resetting = s.status.resetting := by
  cases k with
  | partReset => exact absurd rfl h
  | queryStatus => exact s.takeQueryStatus_resetting p
  | paramSet => exact s.takeParamSet_resetting p
  | _ => simp [State.dispatch]

theorem State.dispatch_pkt (s : State) (k : Kind) (ch : Chan) (p : List Byte) : (s.dispatch k ch p).1.pkt = s.pkt := by
  cases k <;> simp [State.dispatch]

/-- A part becomes RESETTING with the reply that is marked, and with no other (R187). -/
theorem State.dispatch_isSome_resetting (s : State) (hr : s.status.resetting = none) (k : Kind) (ch : Chan)
    (p : List Byte) : (s.dispatch k ch p).1.status.resetting.isSome = (s.dispatch k ch p).2.isMarked := by
  by_cases hk : k = .partReset
  · subst hk
    show (s.takePartReset p).1.status.resetting.isSome = (s.takePartReset p).2.isMarked
    unfold State.takePartReset
    split
    · rw [hr]; rfl
    · rfl
  · rw [s.dispatch_resetting hk, s.dispatch_isMarked hk, hr]
    rfl

/-- A reply that is carried out adds a marked entry where it is marked. -/
theorem State.carryOut_marks (s : State) (ch : Chan) (seq : SeqNo) (kind : Byte) (reply : Reply) :
    (s.carryOut ch seq kind reply).pkt.marks = s.pkt.marks + reply.isMarked.toNat := by
  cases reply <;> simp [State.carryOut, Reply.isMarked]

/-! ### The Channel Unit -/

theorem State.genericRefusal_resetting {s : State} {kind : Byte} {ch : Chan} {p : List Byte}
    (h : s.genericRefusal kind ch p = none) : s.status.resetting = none := by
  unfold State.genericRefusal at h
  split at h
  · cases h
  · split at h
    · cases h
    · split at h
      · cases h
      · split at h
        · cases h
        · next hr => simpa using hr

/-- A part that accepts a message is not RESETTING and so has no marked entry; its owner's reply is marked exactly
where RESETTING begins. -/
theorem State.judge_keepsMark (s : State) (ch : Chan) (seq : SeqNo) (kind : Byte) (p : List Byte) :
    s.KeepsMark (s.judge ch seq kind p) := by
  unfold State.judge
  split
  · split
    · exact s.fillReserved_keepsMark _ _
    · exact State.KeepsMark.after (State.answerWith_keepsMark _ _ _ _ _ _) rfl rfl
  · next hok =>
    split
    · next k _ =>
      intro hs
      have hr : (s.advance ch seq).status.resetting = none := State.genericRefusal_resetting hok
      rw [State.markLaw_iff] at hs ⊢
      simp only [State.carryOut_marks, State.carryOut_status, State.dispatch_pkt,
        State.dispatch_isSome_resetting _ hr]
      rw [show (s.advance ch seq).pkt.marks = s.status.resetting.isSome.toNat from hs,
        show s.status.resetting = none from hr]
      simp
    · exact .refl s

theorem State.complete_keepsMark (s : State) (ch : Chan) (seq : SeqNo) (kind : Byte) (p : List Byte) :
    s.KeepsMark (s.complete ch seq kind p) := by
  unfold State.complete
  simp only []
  split
  · exact State.KeepsMark.after (State.judge_keepsMark _ _ _ _ _) rfl rfl
  · exact .same rfl rfl

theorem State.refuseAfterDrop_keepsMark (s : State) (ch : Chan) (f : Fragment) (code : Code) (payload : List Byte) :
    s.KeepsMark ((s.dropAssembly ch).refuseFragment f code payload) :=
  State.KeepsMark.after (State.refuseFragment_keepsMark _ _ _ _) rfl rfl

theorem State.duplicate_keepsMark (s : State) (f : Fragment) : s.KeepsMark (s.duplicate f) := by
  unfold State.duplicate
  split
  · exact s.offer_keepsMark _
  · exact .refl s

theorem State.outOfSequence_keepsMark (s : State) (f : Fragment) : s.KeepsMark (s.outOfSequence f) := by
  unfold State.outOfSequence
  simp only []
  split
  · split
    · exact s.refuseFragment_keepsMark _ _ _
    · exact .refl s
  · exact State.KeepsMark.after (State.refuseFragment_keepsMark _ _ _ _) rfl rfl

theorem State.idleFragment_keepsMark (s : State) (f : Fragment) : s.KeepsMark (s.idleFragment f) := by
  unfold State.idleFragment
  simp only []
  split
  · exact s.duplicate_keepsMark f
  · split
    · split
      · split
        · exact s.complete_keepsMark _ _ _ _
        · split
          · exact s.refuseAfterDrop_keepsMark _ _ _ _
          · exact .same rfl rfl
      · exact .refl s
    · exact s.outOfSequence_keepsMark f

theorem State.assemblingFragment_keepsMark (s : State) (f : Fragment) (a : Assembly) :
    s.KeepsMark (s.assemblingFragment f a) := by
  unfold State.assemblingFragment
  split
  · split
    · split
      · exact s.refuseAfterDrop_keepsMark _ _ _ _
      · split
        · exact s.complete_keepsMark _ _ _ _
        · exact .same rfl rfl
    · split
      · exact .refl s
      · exact s.refuseAfterDrop_keepsMark _ _ _ _
  · exact State.KeepsMark.after (State.idleFragment_keepsMark _ f) rfl rfl

theorem State.judgeResync_keepsMark (s : State) (f : Fragment) : s.KeepsMark (s.judgeResync f) := by
  unfold State.judgeResync
  split
  · exact s.fillReserved_keepsMark _ _
  · exact .same (by simp) rfl

theorem State.resyncFragment_keepsMark (s : State) (f : Fragment) : s.KeepsMark (s.resyncFragment f) := by
  unfold State.resyncFragment
  split
  · exact .refl s
  · split
    · exact s.refuseFragment_keepsMark _ _ _
    · split
      · exact State.KeepsMark.after (State.judgeResync_keepsMark _ f) rfl rfl
      · exact .same rfl rfl

theorem State.fragment_keepsMark (s : State) (f : Fragment) : s.KeepsMark (s.fragment f) := by
  unfold State.fragment
  split
  · exact s.resyncFragment_keepsMark f
  · split
    · exact s.assemblingFragment_keepsMark f _
    · unfold State.executingFragment
      simp only []
      split
      · exact .refl s
      · split
        · exact s.refuseFragment_keepsMark _ _ _
        · exact .refl s
    · unfold State.haltedFragment
      split
      · exact s.refuseFragment_keepsMark _ _ _
      · exact .refl s
    · exact s.idleFragment_keepsMark f

theorem State.handOn_keepsMark (s : State) (f : Option Fragment) : s.KeepsMark (s.handOn f) := by
  cases f with
  | none => exact .refl s
  | some f => exact s.fragment_keepsMark f

theorem State.receive_keepsMark (s : State) (k : Kind) (ch : Chan) (seq : SeqNo) (p : List Byte) :
    s.KeepsMark (s.receive k ch seq p) := by
  unfold State.receive
  split
  · exact State.KeepsMark.foldl State.fragment_keepsMark _ s
  · exact .refl s

/-! ### An open head -/

theorem State.activeRelease_keepsMark (s : State) (f : FrameNo) (id : Nat) : s.KeepsMark (s.activeRelease f id) := by
  unfold State.activeRelease
  split
  · exact .refl s
  · split
    · next g _ _ =>
      exact State.KeepsMark.after (State.offerNotice_keepsMark _ _ _) rfl rfl
    · exact .same rfl rfl

theorem State.activeMove_keepsMark (s : State) (f : FrameNo) (a b : Option Nat) : s.KeepsMark (s.activeMove f a b) := by
  have released : s.KeepsMark (match a with
      | some id => s.activeRelease f id
      | none => s) := by
    cases a with
    | none => exact .refl s
    | some id => exact s.activeRelease_keepsMark f id
  unfold State.activeMove
  split
  · exact .refl s
  · cases b with
    | none => exact released
    | some id => exact released.trans (.same rfl rfl)

theorem State.activeMoves_keepsMark (s : State) (f : FrameNo) (before after : List (Option Nat)) :
    s.KeepsMark (s.activeMoves f before after) :=
  State.KeepsMark.foldl (fun s (m : Option Nat × Option Nat) => s.activeMove_keepsMark f m.1 m.2) _ s

theorem State.reportApplied_keepsMark (s : State) (f : FrameNo) (set : Scheduled) :
    s.KeepsMark (s.reportApplied f set) := by
  unfold State.reportApplied
  simp only []
  have applied := s.offerNotice_keepsMark .applied (be2 f.toNat ++ set.target.bytes ++ [byte set.edits.length])
  split
  · exact applied
  · split
    · exact applied
    · exact applied.trans (State.KeepsMark.after (State.offerNotice_keepsMark _ _ _) rfl rfl)

theorem State.applyDue_keepsMark (s : State) : s.KeepsMark s.applyDue := by
  unfold State.applyDue
  split
  · next f set _ =>
    have moved := State.activeMoves_keepsMark
      { s with comp := s.comp.apply set.edits, store := s.store.releaseStaged set.edits } f
      (s.comp.wins.map (·.segment)) ((s.comp.apply set.edits).wins.map (·.segment))
    exact (State.KeepsMark.after moved rfl rfl).trans
      (State.KeepsMark.after (State.reportApplied_keepsMark _ f set) rfl rfl)
  · exact .refl s

theorem State.timeOut_keepsMark (s : State) (ch : Chan) : s.KeepsMark (s.timeOut ch) := by
  unfold State.timeOut
  split
  · split
    · exact State.KeepsMark.after (State.offerNotice_keepsMark _ _ _) rfl rfl
    · exact .refl s
  · exact .refl s

theorem State.settle_keepsMark (s : State) : s.KeepsMark s.settle := by
  unfold State.settle
  split
  · refine s.applyDue_keepsMark.trans ((State.KeepsMark.foldl State.timeOut_keepsMark [0, 1, 2, 3] _).trans ?_)
    exact .same rfl rfl
  · exact .refl s

/-! ### Resets and lock states -/

/-- With no marked entry left in the queue, a reset's effect ends RESETTING. -/
theorem State.resetEffect_markLaw {s : State} (h : s.pkt.marks = 0) (path : ResetPath) :
    (s.resetEffect path).markLaw = true := by
  unfold State.resetEffect
  split
  · exact State.markLaw_of_none h rfl
  · exact State.markLaw_of_none rfl rfl
  · next hr => exact State.markLaw_of_none h hr

theorem State.resetAtNoSignal_keepsMark (s : State) : s.KeepsMark s.resetAtNoSignal := by
  unfold State.resetAtNoSignal
  split
  · exact fun _ => State.resetEffect_markLaw (by simp [PacketUnit.marks]) _
  · exact .refl s

theorem State.reportLock_keepsMark (s : State) (a b : LockState) (c : LockCause) : s.KeepsMark (s.reportLock a b c) :=
  State.KeepsMark.after (State.offerNotice_keepsMark _ _ _) rfl rfl

theorem State.enterNoSignal_keepsMark (s : State) (cause : LockCause) : s.KeepsMark (s.enterNoSignal cause) := by
  unfold State.enterNoSignal
  simp only []
  refine State.KeepsMark.trans ?_ ((State.resetAtNoSignal_keepsMark _).trans (State.reportLock_keepsMark _ _ _ _))
  exact .same rfl rfl

theorem State.enter_keepsMark (s : State) (t : Timing) (cause : LockCause) : s.KeepsMark (s.enter t cause) :=
  State.KeepsMark.after (State.reportLock_keepsMark _ _ _ _) rfl rfl

theorem State.leaveLocked_keepsMark (s : State) (cause : LockCause) (g : Option Generator) :
    s.KeepsMark (s.leaveLocked cause g) := by
  unfold State.leaveLocked
  split
  · exact s.enterNoSignal_keepsMark cause
  · exact State.KeepsMark.after (State.enter_keepsMark _ _ _) rfl rfl

theorem State.leaveRejoining_keepsMark (s : State) : s.KeepsMark s.leaveRejoining := by
  unfold State.leaveRejoining
  split
  · exact s.enterNoSignal_keepsMark _
  · exact State.KeepsMark.after (State.enter_keepsMark _ _ _) rfl rfl

theorem State.absence_keepsMark (s : State) : s.KeepsMark s.absence := by
  unfold State.absence
  split
  · exact s.enterNoSignal_keepsMark _
  · exact s.leaveLocked_keepsMark _ _
  · exact s.leaveRejoining_keepsMark
  · exact .refl s
  · exact .refl s

theorem State.assess_keepsMark (s : State) (shape : Option FrameShape) : s.KeepsMark (s.assess shape) := by
  unfold State.assess
  simp only []
  split
  · exact State.KeepsMark.after (State.enter_keepsMark _ _ _) rfl rfl
  · exact .same rfl rfl

theorem State.judgeLocked_keepsMark (s : State) (shape : Option FrameShape) : s.KeepsMark (s.judgeLocked shape) := by
  unfold State.judgeLocked
  split
  · exact .same rfl rfl
  · simp only []
    split
    · exact State.KeepsMark.after (State.leaveLocked_keepsMark _ _ _) rfl rfl
    · exact .same rfl rfl

theorem State.judgeFrame_keepsMark (s : State) (shape : Option FrameShape) : s.KeepsMark (s.judgeFrame shape) := by
  unfold State.judgeFrame
  split
  · exact s.assess_keepsMark shape
  · exact s.assess_keepsMark shape
  · exact s.judgeLocked_keepsMark shape
  · exact .refl s
  · exact .refl s

/-! ### Lines -/

/-- The emission of the one marked entry ends RESETTING; that of any other changes neither side of the law. -/
theorem State.fixFree_keepsMark (s : State) (width : Nat) : s.KeepsMark (s.fixFree width).1 := by
  unfold State.fixFree
  split
  · exact .refl s
  · next e rest hfilled =>
    split
    · simp only []
      split
      · next hmarked =>
        intro hs
        refine State.resetEffect_markLaw ?_ _
        have hcount : s.pkt.marks = (rest.filter fun e => e.marked).length + 1 := by
          simp [PacketUnit.marks, hfilled, hmarked]
        have hone := Bool.toNat_le s.status.resetting.isSome
        rw [State.markLaw_iff] at hs
        show (rest.filter fun e => e.marked).length = 0
        omega
      · next hmarked => exact .same (by simp [PacketUnit.marks, hfilled, hmarked]) rfl
    · exact .refl s

theorem State.emitFree_keepsMark (s : State) (width : Nat) (src : LineSource) (offset : Option Nat) :
    s.KeepsMark (s.emitFree width src offset) :=
  (s.fixFree_keepsMark width).trans (.same rfl rfl)

theorem State.flagPacket_keepsMark (s : State) (bytes : List Byte) : s.KeepsMark (s.flagPacket bytes) := by
  unfold State.flagPacket
  split
  · exact .same rfl rfl
  · exact .refl s

theorem State.relayManaged_keepsMark (s : State) (d : Disposition) (outside : Bool) (data : List DataWord) :
    s.KeepsMark (s.relayManaged d outside data) := by
  unfold State.relayManaged
  split
  · exact s.emitFree_keepsMark _ _ _
  · exact s.emitFree_keepsMark _ _ _
  all_goals exact .same rfl rfl

theorem State.relay_keepsMark (s : State) (fr : InFrame) (data : List DataWord) : s.KeepsMark (s.relay fr data).1 := by
  unfold State.relay
  split
  · exact .same rfl rfl
  · unfold State.relayBlank
    split
    · exact (s.flagPacket_keepsMark _).trans (State.relayManaged_keepsMark _ _ _ _)
    · exact .same rfl rfl
  · unfold State.relayActive
    split
    · exact .same rfl rfl
    · simp only []
      split <;> exact .same rfl rfl
  · exact .same rfl rfl

theorem State.completeLine_keepsMark (s : State) (data : List DataWord) : s.KeepsMark (s.completeLine data).1 := by
  unfold State.completeLine
  split
  · exact .refl s
  · simp only []
    split
    · exact State.KeepsMark.after (State.relay_keepsMark _ _ _) rfl rfl
    · exact State.KeepsMark.after (State.relay_keepsMark _ _ _) rfl rfl
    · unfold State.examineOnly
      split
      · exact State.KeepsMark.after (State.flagPacket_keepsMark _ _) rfl rfl
      · exact .same rfl rfl
    · exact .refl s
    · exact .refl s

theorem State.openLine_keepsMark (s : State) (w : Lane) (n : Nat) : s.KeepsMark (s.openLine w n) := by
  unfold State.openLine
  split
  · exact .refl s
  · split
    · simp only []
      split
      · exact (s.judgeFrame_keepsMark none).trans (.same rfl rfl)
      · exact s.judgeFrame_keepsMark none
    · exact .same rfl rfl

theorem State.beginFrame_keepsMark (s : State) : s.KeepsMark s.beginFrame := .same rfl rfl

theorem State.takeHead_keepsMark (s : State) (n : Nat) : s.KeepsMark (s.takeHead n) := by
  unfold State.takeHead
  split
  · exact (s.judgeFrame_keepsMark _).trans (State.beginFrame_keepsMark _)
  · exact s.beginFrame_keepsMark

theorem State.frameHeadFollowed_keepsMark (s : State) (data : List DataWord) (n : Nat) (b : Bool) :
    s.KeepsMark (s.frameHeadFollowed data n b) := by
  unfold State.frameHeadFollowed
  split
  · unfold State.frameHeadLocking
    simp only []
    refine (s.judgeFrame_keepsMark (s.endedShape data n)).trans ((State.completeLine_keepsMark _ data).trans ?_)
    split
    · exact (State.beginFrame_keepsMark _).trans (State.handOn_keepsMark _ _)
    · exact (State.handOn_keepsMark _ _).trans (State.beginFrame_keepsMark _)
  · unfold State.frameHeadJudging
    simp only []
    refine (s.completeLine_keepsMark data).trans ((State.settle_keepsMark _).trans ?_)
    split
    · exact (State.takeHead_keepsMark _ _).trans (State.handOn_keepsMark _ _)
    · exact (State.handOn_keepsMark _ _).trans (State.takeHead_keepsMark _ _)

theorem State.frameHeadMarker_keepsMark (s : State) (data : List DataWord) (n : Nat) (b : Bool) :
    s.KeepsMark (s.frameHeadMarker data n b) := by
  unfold State.frameHeadMarker
  split
  · exact (s.enter_keepsMark _ _).trans (State.beginFrame_keepsMark _)
  · exact (s.enter_keepsMark _ _).trans (State.beginFrame_keepsMark _)
  all_goals exact s.frameHeadFollowed_keepsMark data n b

theorem State.markerFollowed_keepsMark (s : State) (w : Lane) (data : List DataWord) (n : Nat) :
    s.KeepsMark (s.markerFollowed w data n) := by
  unfold State.markerFollowed
  exact (s.completeLine_keepsMark data).trans ((State.handOn_keepsMark _ _).trans (State.openLine_keepsMark _ _ _))

theorem State.marker_keepsMark (s : State) (w : Lane) (data : List DataWord) (n : Nat) :
    s.KeepsMark (s.marker w data n) := by
  unfold State.marker
  split
  · exact s.frameHeadMarker_keepsMark _ _ _
  · split
    · exact .refl s
    · exact .refl s
    all_goals exact s.markerFollowed_keepsMark _ _ _

/-! ### The generator -/

theorem State.generatorHead_keepsMark (s : State) : s.KeepsMark s.generatorHead := by
  unfold State.generatorHead
  simp only []
  split
  · exact State.KeepsMark.after (State.enterNoSignal_keepsMark _ _) rfl rfl
  · split
    · exact .same rfl rfl
    · exact .same rfl rfl

theorem State.generatorLine_keepsMark (s : State) (g : Generator) : s.KeepsMark (s.generatorLine g) := by
  unfold State.generatorLine
  simp only []
  split
  · split
    · exact State.KeepsMark.after (State.emitFree_keepsMark _ _ _ _) rfl rfl
    · exact .same rfl rfl
  all_goals exact .same rfl rfl

theorem State.generatorBegin_keepsMark (s : State) : s.KeepsMark s.generatorBegin := by
  unfold State.generatorBegin
  split
  · exact .refl s
  · split
    · split
      · exact s.generatorHead_keepsMark
      · exact .refl s
    · exact s.generatorLine_keepsMark _

/-! ### Store completions -/

theorem State.finishBulk_keepsMark (s : State) (ch : Chan) (kind : Byte) (code : Code) (payload : List Byte) :
    s.KeepsMark (s.finishBulk ch kind code payload) :=
  .same (by simp) rfl

theorem State.writeCompletion_keepsMark (s : State) : s.KeepsMark s.writeCompletion := by
  unfold State.writeCompletion
  split
  · exact State.KeepsMark.after (State.finishBulk_keepsMark _ _ _ _ _) rfl rfl
  · exact .refl s

theorem State.completeVerify_keepsMark (s : State) (id : Nat) (ch : Chan) (check : BitVec 32) :
    s.KeepsMark (s.completeVerify id ch check) := by
  unfold State.completeVerify
  split
  · simp only []
    split
    · refine State.KeepsMark.trans ?_ (State.offerNotice_keepsMark _ _ _)
      exact State.KeepsMark.after (State.finishBulk_keepsMark _ _ _ _ _) rfl rfl
    · exact State.KeepsMark.after (State.finishBulk_keepsMark _ _ _ _ _) rfl rfl
  · exact State.KeepsMark.after (State.finishBulk_keepsMark _ _ _ _ _) rfl rfl

theorem State.verifyCompletion_keepsMark (s : State) : s.KeepsMark s.verifyCompletion := by
  unfold State.verifyCompletion
  split
  · exact s.completeVerify_keepsMark _ _ _
  · exact .refl s

/-! ### Commands -/

theorem State.resetEvent_keepsMark (s : State) (width : Nat) : s.KeepsMark (s.resetEvent width) := by
  unfold State.resetEvent
  split
  · exact s.resetAtNoSignal_keepsMark
  · split
    · exact s.emitFree_keepsMark _ _ _
    · exact .refl s

/-- Every command keeps the mark law. -/
theorem after_keepsMark (i : Instr) (s : State) : s.KeepsMark (s.after i) := by
  cases i with
  | hardReset strap => exact fun _ => State.markLaw_of_none rfl rfl
  | lineMarker w data n => exact s.settle_keepsMark.trans (State.marker_keepsMark _ _ _ _)
  | inputFrameHead data n b => exact s.settle_keepsMark.trans (State.frameHeadMarker_keepsMark _ _ _ _)
  | absenceExpiry n =>
    refine s.settle_keepsMark.trans ?_
    show s.settle.KeepsMark (if _ then _ else _)
    split
    · exact State.absence_keepsMark _
    · exact .refl _
  | generatorLineBegin => exact s.settle_keepsMark.trans (State.generatorBegin_keepsMark _)
  | holdoverLimitReached =>
    refine s.settle_keepsMark.trans ?_
    show s.settle.KeepsMark (if _ then _ else _)
    split
    · exact State.generatorHead_keepsMark _
    · exact .refl _
  | setApplication => exact s.applyDue_keepsMark
  | assemblyTimeout => exact s.settle_keepsMark
  | responseEmission width =>
    refine s.settle_keepsMark.trans ?_
    show s.settle.KeepsMark (if _ then _ else _)
    split
    · exact State.emitFree_keepsMark _ _ _ _
    · exact .refl _
  | segWriteCompletion => exact s.settle_keepsMark.trans (State.writeCompletion_keepsMark _)
  | verifyCompletion => exact s.settle_keepsMark.trans (State.verifyCompletion_keepsMark _)
  | partResetEffect width => exact s.settle_keepsMark.trans (State.resetEvent_keepsMark _ _)
  | _ => exact s.settle_keepsMark.trans (State.receive_keepsMark _ _ _ _ _)

theorem step_keepsMark {s t : State} (h : step s = .next t) : s.KeepsMark t := by
  unfold step at h
  split at h
  · cases h
    exact s.settle_keepsMark
  · next c rest _ =>
    rw [exec_next] at h
    cases h
    exact State.KeepsMark.after (after_keepsMark c _) rfl rfl

/-- Settles O6: the sizes and the bounds by the moves of the picture, the mark by the operations on the queue. -/
theorem sizesAndResetMarkKept : Obligations.SizesAndResetMarkKept := by
  refine ⟨State.tableLaw_iff, fun s => ?_, fun s => ?_, fun s t hs hstep => ?_, fun s t hs hstep => ?_,
    fun s t hs hstep => step_keepsMark hstep hs⟩
  · simp only [State.setLaw_iff_fits, ChangeSet.fits, setFits_iff]
  · rw [State.markLaw_iff]
    cases s.status.resetting <;> simp [PacketUnit.marks]
  · rw [State.tableLaw_iff_sized] at hs ⊢
    exact step_keeps (P := fun p => p.comp.sized) (fun _ _ _ _ => Picture.Move.keeps_sized) hstep hs
  · rw [State.setLaw_iff_fits] at hs ⊢
    exact step_keeps (P := fun p => p.cset.fits) (fun _ _ _ _ => Picture.Move.keeps_setFits) hstep hs

end Sys2Proof.Machine

namespace Sys2Proof.Machine

/-! ## The blend (R28) -/

/-- The sum that the blend divides by 16: the component and the running value, each with its weight. -/
def weightedSum (o : Nat) (c b : Lane) : Nat := o * c.toNat + (16 - o) * b.toNat

/-- The signed form of the sum: sixteen times the running value, and the step towards the component. -/
theorem weightedSum_signed {o : Nat} (ho : o ≤ 16) (c b : Lane) :
    (weightedSum o c b : Int) = 16 * b.toNat + (o : Int) * (c.toNat - b.toNat) := by
  rw [weightedSum, Int.natCast_add, Int.natCast_mul, Int.natCast_mul, Int.natCast_sub ho, Int.sub_mul, Int.mul_sub]
  omega

/-- The weights add up to 16, so the sum lies between sixteen times the smaller and sixteen times the larger value. -/
theorem weightedSum_between {o : Nat} (ho : o ≤ 16) (c b : Lane) :
    16 * min b.toNat c.toNat ≤ weightedSum o c b ∧ weightedSum o c b ≤ 16 * max b.toNat c.toNat := by
  have hsum (m : Nat) : o * m + (16 - o) * m = 16 * m := by rw [← Nat.add_mul, Nat.add_sub_cancel' ho]
  constructor
  · rw [← hsum]
    exact Nat.add_le_add (Nat.mul_le_mul_left _ (Nat.min_le_right ..)) (Nat.mul_le_mul_left _ (Nat.min_le_left ..))
  · rw [← hsum]
    exact Nat.add_le_add (Nat.mul_le_mul_left _ (Nat.le_max_right ..)) (Nat.mul_le_mul_left _ (Nat.le_max_left ..))

/-- With the rounding term the sum is at most 16 x 1023 + 8. -/
theorem weightedSum_bound {o : Nat} (ho : o ≤ 16) (c b : Lane) : weightedSum o c b + 8 ≤ 16376 := by
  have := (weightedSum_between ho c b).2
  have := c.isLt
  have := b.isLt
  omega

/-- The quotient fits a lane, so nothing of it is lost. -/
theorem blend_toNat {o : Nat} (ho : o ≤ 16) (c b : Lane) : (blend o c b).toNat = (weightedSum o c b + 8) / 16 := by
  have := weightedSum_bound ho c b
  have hfits : (weightedSum o c b + 8) / 16 < 2 ^ 10 := by omega
  exact Nat.mod_eq_of_lt hfits

theorem blend_toNat_signed {o : Nat} (ho : o ≤ 16) (c b : Lane) :
    ((blend o c b).toNat : Int) = b.toNat + ((o : Int) * (c.toNat - b.toNat) + 8).fdiv 16 := by
  have := weightedSum_signed ho c b
  rw [blend_toNat ho, Int.fdiv_eq_ediv_of_nonneg _ (by decide)]
  omega

theorem blend_zero (c b : Lane) : blend 0 c b = b := by
  refine BitVec.eq_of_toNat_eq ?_
  rw [blend_toNat (Nat.zero_le _), weightedSum]
  omega

theorem blend_sixteen (c b : Lane) : blend 16 c b = c := by
  refine BitVec.eq_of_toNat_eq ?_
  rw [blend_toNat (Nat.le_refl _), weightedSum]
  omega

theorem blend_between {o : Nat} (ho : o ≤ 16) (c b : Lane) :
    min b.toNat c.toNat ≤ (blend o c b).toNat ∧ (blend o c b).toNat ≤ max b.toNat c.toNat := by
  have := weightedSum_between ho c b
  rw [blend_toNat ho]
  omega

/-- A sum half way between two multiples of 16 rounds upwards. -/
theorem blend_tie {o : Nat} (ho : o ≤ 16) {c b : Lane} {n : Nat} (h : 2 * weightedSum o c b = 16 * (2 * n + 1)) :
    (blend o c b).toNat = n + 1 := by
  rw [blend_toNat ho]
  omega

/-- The dead band: only a step of at least 8 upwards or 9 downwards moves the running value. -/
theorem blend_ne_iff {o : Nat} (ho : o ≤ 16) (c b : Lane) :
    blend o c b ≠ b ↔ 8 ≤ (o : Int) * (c.toNat - b.toNat) ∨ (o : Int) * (c.toNat - b.toNat) ≤ -9 := by
  have := weightedSum_signed ho c b
  rw [Ne, ← BitVec.toNat_inj, blend_toNat ho]
  omega

/-- Settles O10: value and order follow from the sum's size, signed form and dead band from the step it adds to
sixteen times the running value. -/
theorem blendArithmetic : Obligations.BlendArithmetic := by
  intro o c b ho
  refine ⟨blend_toNat ho c b, weightedSum_bound ho c b, blend_toNat_signed ho c b, ?_, ?_, blend_between ho c b,
    fun n => blend_tie ho, blend_ne_iff ho c b⟩
  · rintro rfl
    exact blend_zero c b
  · rintro rfl
    exact blend_sixteen c b

/-! ## A window's visit to a pixel (R11, R12, R13, R27) -/

theorem weight_le_opacity (opacity : Fin 17) (level : Fin 9) : weight opacity level ≤ opacity.val := by
  have hlevel : opacity.val * level.val ≤ opacity.val * 8 := Nat.mul_le_mul_left _ (Nat.le_of_lt_succ level.isLt)
  rw [weight]
  omega

theorem weight_le_sixteen (opacity : Fin 17) (level : Fin 9) : weight opacity level ≤ 16 :=
  Nat.le_trans (weight_le_opacity opacity level) (Nat.le_of_lt_succ opacity.isLt)

theorem weight_level_full (opacity : Fin 17) : weight opacity 8 = opacity.val :=
  Nat.mul_div_cancel _ (by decide)

theorem weight_level_zero (opacity : Fin 17) : weight opacity 0 = 0 := by
  simp [weight]

theorem weight_opaque (level : Fin 9) : weight 16 level = 2 * level.val := by
  show 16 * level.val / 8 = 2 * level.val
  omega

theorem WindowRec.coversColumn_iff (w : WindowRec) (x : Nat) :
    w.coversColumn x = true ↔ w.originX ≤ x ∧ x < w.originX + w.srcWidth * w.hScale.factor := by
  rw [coversColumn, Bool.and_eq_true, decide_eq_true_eq, decide_eq_true_eq]

/-- The raw value a fetched row holds for output column `x` (R5, R6). -/
def RowFetch.rawAt (f : RowFetch) (x : Nat) : Nat :=
  rawValue f.win.depth f.bytes ((x - f.win.originX) / f.win.hScale.factor)

/-- The palette entry a fetched row selects for output column `x` (R12). -/
def RowFetch.entryAt (c : Compositor) (f : RowFetch) (x : Nat) : PalEntry :=
  c.palEntry f.win.palette (f.win.paletteIndex (f.rawAt x))

theorem visit_outside (c : Compositor) {x : Nat} (pix : DataWord) {f : RowFetch} (h : f.win.coversColumn x ≠ true) :
    visit c x pix f = pix :=
  if_neg h

theorem visit_keyed (c : Compositor) {x : Nat} (pix : DataWord) {f : RowFetch} (h : f.win.coversColumn x = true)
    (hkey : f.win.key = some (f.rawAt x)) : visit c x pix f = pix :=
  (if_pos h).trans (if_pos hkey)

theorem visit_contributing (c : Compositor) {x : Nat} (pix : DataWord) {f : RowFetch}
    (h : f.win.coversColumn x = true) (hkey : f.win.key ≠ some (f.rawAt x)) :
    let e := f.entryAt c x
    let o := weight e.opacity f.win.level
    visit c x pix f = ⟨blend o e.y pix.luma, blend o (if x % 2 = 0 then e.cb else e.cr) pix.chroma⟩ :=
  (if_pos h).trans (if_neg hkey)

/-- A window at level 0 contributes with weight 0 wherever it contributes, which leaves both lanes. -/
theorem visit_level_zero (c : Compositor) (x : Nat) (pix : DataWord) {f : RowFetch} (h : f.win.level = 0) :
    visit c x pix f = pix := by
  by_cases hin : f.win.coversColumn x = true
  · by_cases hkey : f.win.key = some (f.rawAt x)
    · exact visit_keyed c pix hin hkey
    · rw [visit_contributing c pix hin hkey, h, weight_level_zero, blend_zero, blend_zero]
  · exact visit_outside c pix hin

/-- Settles O11: the clauses are the branches of `visit`, the bounds those of the weight. -/
theorem windowVisit : Obligations.WindowVisit := by
  intro c x pix f raw index e o inside
  have hinside : f.win.coversColumn x = true ↔ inside := f.win.coversColumn_iff x
  rw [← hinside]
  refine ⟨visit_outside c pix, visit_keyed c pix, visit_contributing c pix, weight_le_sixteen e.opacity f.win.level,
    weight_le_opacity e.opacity f.win.level, fun hlevel => ?_, fun hopaque => ?_, fun hlevel => ⟨?_, ?_⟩⟩
  · show weight e.opacity f.win.level = e.opacity.val
    rw [hlevel, weight_level_full]
  · show weight e.opacity f.win.level = 2 * f.win.level.val
    rw [hopaque, weight_opaque]
  · show weight e.opacity f.win.level = 0
    rw [hlevel, weight_level_zero]
  · exact visit_level_zero c x pix hlevel

end Sys2Proof.Machine

namespace Sys2Proof.Machine

/-! ## A message whose owner changes the part and answers -/

/-- A message row is the whole message received after the rest of an open head (log 1, log 2). -/
theorem exec_command (k : Kind) (ch : Chan) (seq : SeqNo) (p : List Byte) (s : State) :
    exec (k.command ch seq p) s = .next (s.settle.receive k ch seq p) := by
  cases k <;> rfl

/-- The owner leaves the part as state `t` would be found by it, and answers: the message leaves `t`, answered. -/
theorem exec_answered {s t : State} {k : Kind} {ch : Chan} {seq : SeqNo} {p payload : List Byte} {code : Code}
    (hready : s.settle.readyFor ch seq) (hk : k ≠ .resync) (hch : k.onChannel ch = true)
    (hlen : k.lengthAllowed p = true) (hp : p.length ≤ 8192)
    (howner : (s.settle.accepting ch seq).dispatch k ch p = (t.accepting ch seq, .answer code payload)) :
    exec (k.command ch seq p) s = .next (t.answered ch seq k.code code payload) := by
  rw [exec_command, State.receive_accepted hready hk hch hlen hp, howner]
  exact congrArg Host.Outcome.next (t.accepting_answerWith ch seq k.code code payload)

/-! ## The capacity check and the append (R37, R38) -/

theorem State.stage_of_room {v : State} {e : Edit} (h : v.canStage e.bytes) :
    v.stage e = (v.staged e, .answer .ok (setCounts (v.cset.openSet ++ [e]))) := by
  obtain ⟨hcount, hbytes⟩ := h
  exact if_neg (not_or.mpr ⟨Nat.not_le.mpr hcount, Nat.not_lt.mpr hbytes⟩)

theorem State.stage_of_full {v : State} {e : Edit} (h : ¬ v.canStage e.bytes) :
    v.stage e = (v, .answer .setFull (setCounts v.cset.openSet)) := by
  refine if_pos ?_
  by_cases hcount : v.cset.openSet.length < 32
  · exact .inr (Nat.not_le.mp fun hbytes => h ⟨hcount, hbytes⟩)
  · exact .inl (Nat.not_lt.mp hcount)

/-- A message whose owner goes straight to the capacity check is taken or refused SET_FULL. -/
theorem exec_edit {s : State} {k : Kind} {seq : SeqNo} {p : List Byte} {e : Edit}
    (hready : s.settle.readyFor 0 seq) (hk : k ≠ .resync) (hch : k.onChannel 0 = true)
    (hlen : k.lengthAllowed p = true) (hp : p.length ≤ 8192)
    (howner : (s.settle.accepting 0 seq).dispatch k 0 p = (s.settle.accepting 0 seq).stage e) :
    (s.settle.canStage e.bytes → exec (k.command 0 seq p) s = .next (s.settle.editTaken seq k.code e)) ∧
      (¬ s.settle.canStage e.bytes → exec (k.command 0 seq p) s = .next (s.settle.editFull seq k.code)) :=
  ⟨fun hroom => exec_answered (t := s.settle.staged e) hready hk hch hlen hp
      (howner.trans (State.stage_of_room (v := s.settle.accepting 0 seq) hroom)),
    fun hfull => exec_answered hready hk hch hlen hp
      (howner.trans (State.stage_of_full (v := s.settle.accepting 0 seq) hfull))⟩

/-! ## WIN_PLACE and WIN_SHOW (R41, R42) -/

theorem State.takeWinPlace_stages (v : State) {p : List Byte} (hindex : u1 p 0 ≤ 7) (hzero : u1 p 1 = 0)
    (hx : u2 p 2 ≤ 4095) (hy : u2 p 4 ≤ 4095) :
    v.takeWinPlace p = v.stage (.winPlace (u1 p 0) (u2 p 2) (u2 p 4)) := by
  have hchecks : firstBad (winPlaceChecks p) = none :=
    firstBad_eq_none (by simp [winPlaceChecks, Nat.lt_succ_of_le hindex, hzero, hx, hy])
  simp only [State.takeWinPlace, hchecks]

theorem State.takeWinShow_stages (v : State) {p : List Byte} (hindex : u1 p 0 ≤ 7) (hon : u1 p 1 ≤ 1) :
    v.takeWinShow p = v.stage (.winShow (u1 p 0) (u1 p 1 == 1)) := by
  have hchecks : firstBad (winShowChecks p) = none :=
    firstBad_eq_none (by simp [winShowChecks, Nat.lt_succ_of_le hindex, Nat.lt_succ_of_le hon])
  simp only [State.takeWinShow, hchecks]

/-- Settles O17: in range, both owners go straight to the capacity check. -/
theorem placeAndShowStaged : Obligations.PlaceAndShowStaged := by
  refine ⟨fun i w => ?_, fun _ _ _ => rfl, fun _ _ => rfl, fun _ _ _ => rfl, fun _ => rfl, fun _ => ⟨rfl, rfl⟩, ?_⟩
  · cases h : w.remap <;> simp [Edit.bytes, h]
  intro s seq p u hready
  constructor
  · intro hlen hindex hzero hx hy
    exact exec_edit (k := .winPlace) hready (by decide) rfl (by simp [Kind.lengthAllowed, hlen]) (by omega)
      ((u.accepting 0 seq).takeWinPlace_stages hindex hzero hx hy)
  · intro hlen hindex hon
    exact exec_edit (k := .winShow) hready (by decide) rfl (by simp [Kind.lengthAllowed, hlen]) (by omega)
      ((u.accepting 0 seq).takeWinShow_stages hindex hon)

/-! ## PAL_STAGE and FILL_STAGE (R43, R44) -/

/-- A field of at most ten bits is kept whole in a lane. -/
theorem lane_toNat {n : Nat} (h : n ≤ 1023) : (BitVec.ofNat 10 n).toNat = n :=
  BitVec.toNat_ofNat n 10 ▸ Nat.mod_eq_of_lt (Nat.lt_succ_of_le h)

/-- The entries a PAL_STAGE carries. -/
def palEntriesOf (p : List Byte) : List PalEntry := (List.range (u2 p 2)).map fun k => palEntryOf p (4 + 8 * k)

@[simp] theorem palEntriesOf_length (p : List Byte) : (palEntriesOf p).length = u2 p 2 := by
  simp [palEntriesOf]

theorem palEntriesOf_getElem? {p : List Byte} {k : Nat} {e : PalEntry} (h : (palEntriesOf p)[k]? = some e) :
    k < u2 p 2 ∧ e = palEntryOf p (4 + 8 * k) := by
  obtain ⟨hk, rfl⟩ := List.getElem?_eq_some_iff.mp h
  exact ⟨by simpa using hk, by simp [palEntriesOf]⟩

theorem State.takePalStage_stages (v : State) {p : List Byte} (h : palStageFits p) :
    v.takePalStage p = v.stage (.palStage (u1 p 0) (u1 p 1) (palEntriesOf p)) := by
  obtain ⟨hpal, hpos, hcount, hend, hentries⟩ := h
  have hchecks : firstBad (palStageChecks p) = none := by
    refine firstBad_eq_none fun c hc => ?_
    simp only [palStageChecks, List.mem_cons, List.mem_flatMap, List.mem_range] at hc
    rcases hc with rfl | rfl | ⟨k, hk, hc⟩
    · simpa using Nat.lt_succ_of_le hpal
    · simp [hpos, hcount, hend]
    · obtain ⟨hy, hcb, hcr, hop⟩ := hentries k hk
      simp only [palEntryChecks, List.mem_cons, List.not_mem_nil, or_false] at hc
      rcases hc with rfl | rfl | rfl | rfl
      · exact decide_eq_true hy
      · exact decide_eq_true hcb
      · exact decide_eq_true hcr
      · exact decide_eq_true hop
  simp only [State.takePalStage, hchecks, palEntriesOf]

theorem State.takeFillStage_stages (v : State) {p : List Byte} (hy : u2 p 0 ≤ 1023) (hcb : u2 p 2 ≤ 1023)
    (hcr : u2 p 4 ≤ 1023) : v.takeFillStage p = v.stage (.fillStage (colourOf p)) := by
  have hchecks : firstBad (fillStageChecks p) = none :=
    firstBad_eq_none (by simp [fillStageChecks, hy, hcb, hcr])
  simp only [State.takeFillStage, hchecks]

/-- Settles O18: in range, both owners go straight to the capacity check, with the entries or the colour read whole. -/
theorem paletteAndFillStaged : Obligations.PaletteAndFillStaged := by
  intro s seq p u hready
  constructor
  · intro hlen hfits
    obtain ⟨_, _, hcount, _, hentries⟩ := id hfits
    have hedit := exec_edit (k := .palStage) hready (by decide) rfl (by simp [Kind.lengthAllowed, hlen]) (by omega)
      ((u.accepting 0 seq).takePalStage_stages hfits)
    rw [Edit.bytes, palEntriesOf_length] at hedit
    refine ⟨fun hroom => ⟨palEntriesOf p, palEntriesOf_length p, fun k e he => ?_, hedit.1 hroom⟩, hedit.2⟩
    obtain ⟨hk, rfl⟩ := palEntriesOf_getElem? he
    obtain ⟨hy, hcb, hcr, hop⟩ := hentries k hk
    exact ⟨lane_toNat hy, lane_toNat hcb, lane_toNat hcr, Nat.mod_eq_of_lt (Nat.lt_succ_of_le hop)⟩
  · intro hlen hy hcb hcr
    have hedit := exec_edit (k := .fillStage) hready (by decide) rfl (by simp [Kind.lengthAllowed, hlen]) (by omega)
      ((u.accepting 0 seq).takeFillStage_stages hy hcb hcr)
    exact ⟨fun hroom => ⟨colourOf p, lane_toNat hy, lane_toNat hcb, lane_toNat hcr, hedit.1 hroom⟩, hedit.2⟩

/-! ## WIN_STAGE (R39, R40) -/

/-- A code in range names a depth, and is its number of bits. -/
theorem Depth.ofNat?_of_bits {n : Nat} (h : n = 1 ∨ n = 2 ∨ n = 4 ∨ n = 8) :
    ∃ d, Depth.ofNat? n = some d ∧ d.bits = n := by
  rcases h with rfl | rfl | rfl | rfl
  · exact ⟨.d1, rfl, rfl⟩
  · exact ⟨.d2, rfl, rfl⟩
  · exact ⟨.d4, rfl, rfl⟩
  · exact ⟨.d8, rfl, rfl⟩

theorem Depth.remapCount_eq (d : Depth) : d.remapCount = if d.bits = 8 then 0 else 2 ^ d.bits := by
  cases d <;> rfl

theorem Scale.ofNat?_isSome {n : Nat} (h : n = 1 ∨ n = 2 ∨ n = 4) : (Scale.ofNat? n).isSome = true := by
  rcases h with rfl | rfl | rfl <;> rfl

theorem ShowCond.ofNat?_isSome {n : Nat} (h : n ≤ 2) : (ShowCond.ofNat? n).isSome = true := by
  match n, h with
  | 0, _ => rfl
  | 1, _ => rfl
  | 2, _ => rfl

theorem winStageChecks_pass {p : List Byte} (h : winStageFits p) : firstBad (winStageChecks p) = none := by
  obtain ⟨hindex, hon, hdepth, ⟨hw1, hw⟩, ⟨hh1, hh⟩, hx, hy, hhs, hvs, hpal, hlevel, hprio, hcond, hpres, hkey,
    hcount⟩ := h
  obtain ⟨d, hd, hbits⟩ := Depth.ofNat?_of_bits hdepth
  have hkeyed : u1 p 20 = 0 ∨ u1 p 21 < 2 ^ u1 p 3 := by
    rcases Nat.le_one_iff_eq_zero_or_eq_one.mp hpres with h0 | h1
    · exact .inl h0
    · exact .inr (hkey h1)
  refine firstBad_eq_none ?_
  simp only [winStageChecks, hd, Option.getD_some, Depth.remapCount_eq, hbits]
  simp [Nat.lt_succ_of_le hindex, Nat.lt_succ_of_le hon, hw1, hw, hh1, hh, hx, hy, Scale.ofNat?_isSome hhs,
    Scale.ofNat?_isSome hvs, Nat.lt_succ_of_le hpal, hlevel, hprio, ShowCond.ofNat?_isSome hcond,
    Nat.lt_succ_of_le hpres, hkeyed, hcount]

/-- A remap in range has at most the 16 entries of depth 4. -/
theorem winStageFits_remap_le {p : List Byte} (h : winStageFits p) : u2 p 22 ≤ 16 := by
  obtain ⟨-, -, hdepth, -, -, -, -, -, -, -, -, -, -, -, -, hcount⟩ := h
  rcases hdepth with hd | hd | hd | hd
  all_goals rw [hcount, hd]; decide

/-- A WIN_STAGE in range counts its payload's bytes: 24 and those of its remap (R36, R39). -/
theorem windowOf_bytes {p : List Byte} (hlen : p.length = 24 + u2 p 22) (h : winStageFits p) (i : Nat) :
    (Edit.winStage i (windowOf p)).bytes = 24 + u2 p 22 := by
  obtain ⟨-, -, hdepth, -, -, -, -, -, -, -, -, -, -, -, -, hcount⟩ := h
  obtain ⟨d, hd, hbits⟩ := Depth.ofNat?_of_bits hdepth
  have hremap : (windowOf p).remap = if u2 p 22 = 0 then none else some ((p.drop 24).map BitVec.toNat) := by
    simp only [windowOf, hd, Option.getD_some, Depth.remapCount_eq, hbits, hcount]
  rw [Edit.bytes, hremap]
  split
  · next h0 => rw [h0]; rfl
  · simp [hlen]

/-- A record changed under its id is the record retagged. -/
theorem Store.update_eq_retag (st : Store) (id : Nat) (f : Segment → Segment) : st.update id f = st.retag id f := by
  simp only [Store.update, Store.retag, beq_iff_eq]

section SegmentChecks

variable {st : Store} {id : Nat} {g : Segment}

theorem Store.segmentRefusal_of_missing (h : st.seg id = none) :
    st.segmentRefusal (some id) = some (.answer .noSegment (be4 id)) := by
  simp only [Store.segmentRefusal, h, noSegment]

theorem Store.segmentRefusal_of_loading (h : st.seg id = some g) (hstate : g.state = .loading) :
    st.segmentRefusal (some id) = some (.answer .notReady (be4 id ++ [0])) := by
  simp only [Store.segmentRefusal, h, hstate, segRefusal, Store.seg_id h]
  rfl

theorem Store.segmentRefusal_of_verifying (h : st.seg id = some g) (hstate : g.state = .verifying) :
    st.segmentRefusal (some id) = some (.answer .notReady (be4 id ++ [1])) := by
  simp only [Store.segmentRefusal, h, hstate, segRefusal, Store.seg_id h]
  rfl

theorem Store.segmentRefusal_of_retiring (h : st.seg id = some g) (hstate : g.state = .retiring) :
    st.segmentRefusal (some id) = some (.answer .retiring (be4 id)) := by
  simp only [Store.segmentRefusal, h, hstate, Store.seg_id h]

theorem Store.segmentRefusal_of_ready (h : st.seg id = some g) (hstate : g.state = .ready) :
    st.segmentRefusal (some id) = none := by
  simp only [Store.segmentRefusal, h, hstate]

end SegmentChecks

section WinStage

variable {v : State} {p : List Byte}

theorem State.takeWinStage_of_refusal {r : Reply} (h : winStageFits p)
    (hseg : v.store.segmentRefusal (windowOf p).segment = some r) : v.takeWinStage p = (v, r) := by
  simp only [State.takeWinStage, winStageChecks_pass h, hseg]

theorem State.takeWinStage_of_room (h : winStageFits p) (hseg : v.store.segmentRefusal (windowOf p).segment = none)
    (hroom : v.canStage (Edit.winStage (u1 p 0) (windowOf p)).bytes) :
    v.takeWinStage p =
      ({ v.staged (.winStage (u1 p 0) (windowOf p)) with store := v.store.claimStaged (windowOf p).segment },
        .answer .ok (setCounts (v.cset.openSet ++ [.winStage (u1 p 0) (windowOf p)]))) := by
  simp only [State.takeWinStage, winStageChecks_pass h, hseg, State.stage_of_room hroom]
  rfl

theorem State.takeWinStage_of_full (h : winStageFits p) (hseg : v.store.segmentRefusal (windowOf p).segment = none)
    (hfull : ¬ v.canStage (Edit.winStage (u1 p 0) (windowOf p)).bytes) :
    v.takeWinStage p = (v, .answer .setFull (setCounts v.cset.openSet)) := by
  simp only [State.takeWinStage, winStageChecks_pass h, hseg, State.stage_of_full hfull]

end WinStage

/-- Settles O19: past the value checks, the named segment's state decides, then the capacity. -/
theorem windowStaged : Obligations.WindowStaged := by
  intro s seq p u named hready hlen hfits
  have hbytes := windowOf_bytes hlen hfits (u1 p 0)
  have hshort := winStageFits_remap_le hfits
  have answers {t : State} {code : Code} {payload : List Byte}
      (h : (u.accepting 0 seq).takeWinStage p = (t.accepting 0 seq, .answer code payload)) :
      exec (.winStage 0 seq p) s = .next (t.answered 0 seq 0x01 code payload) :=
    exec_answered (k := .winStage) hready (by decide) rfl (by simp [Kind.lengthAllowed, hlen]) (by omega) h
  have hnone : named = 0 → (windowOf p).segment = none := fun h => if_pos h
  have hsome : named ≠ 0 → (windowOf p).segment = some named := fun h => if_neg h
  have refuses {code : Code} {payload : List Byte} (hid : named ≠ 0)
      (h : u.store.segmentRefusal (some named) = some (.answer code payload)) :
      exec (.winStage 0 seq p) s = .next (u.answered 0 seq 0x01 code payload) :=
    answers (State.takeWinStage_of_refusal (v := u.accepting 0 seq) hfits ((hsome hid).symm ▸ h))
  have takes {segment : Option Nat} (hseg : (windowOf p).segment = segment)
      (hpass : u.store.segmentRefusal segment = none) (hroom : u.canStage (24 + u2 p 22)) :
      exec (.winStage 0 seq p) s = .next (({ u with store := u.store.claimStaged segment }).editTaken seq 0x01
        (.winStage (u1 p 0) (windowOf p))) := by
    subst hseg
    exact answers (t := State.staged { u with store := _ } _)
      (State.takeWinStage_of_room (v := u.accepting 0 seq) hfits hpass (hbytes ▸ hroom))
  refine ⟨hbytes.trans hlen.symm, fun hid => takes (hnone hid) rfl, fun g hid hg hstate hroom => ?_,
    fun hid hg => refuses hid (Store.segmentRefusal_of_missing hg),
    fun g hid hg hstate => refuses hid (Store.segmentRefusal_of_loading hg hstate),
    fun g hid hg hstate => refuses hid (Store.segmentRefusal_of_verifying hg hstate),
    fun g hid hg hstate => refuses hid (Store.segmentRefusal_of_retiring hg hstate), fun hpass hfull => ?_⟩
  · rw [← Store.update_eq_retag]
    exact takes (hsome hid) (Store.segmentRefusal_of_ready hg hstate) hroom
  · have hseg : u.store.segmentRefusal (windowOf p).segment = none := by
      by_cases hid : named = 0
      · rw [hnone hid]
        rfl
      · obtain ⟨g, hg, hstate⟩ := hpass.resolve_left hid
        rw [hsome hid]
        exact Store.segmentRefusal_of_ready hg hstate
    exact answers (State.takeWinStage_of_full (v := u.accepting 0 seq) hfits hseg (hbytes ▸ hfull))

/-! ## SET_COMMIT (R48 to R51) -/

theorem u1_lt (p : List Byte) (i : Nat) : u1 p i < 256 := ((p[i]?).getD 0).isLt

/-- A two-byte field is kept whole in a frame number. -/
theorem frameNo_toNat (p : List Byte) (i : Nat) : (BitVec.ofNat 16 (u2 p i)).toNat = u2 p i := by
  have hhi := u1_lt p i
  have hlo := u1_lt p (i + 1)
  rw [BitVec.toNat_ofNat]
  exact Nat.mod_eq_of_lt (by unfold u2; omega)

theorem targetOf_atFrame {p : List Byte} (h : u1 p 0 = 1) : targetOf p = .atFrame (BitVec.ofNat 16 (u2 p 1)) :=
  if_pos h

theorem targetOf_next {p : List Byte} (h : u1 p 0 ≠ 1) : targetOf p = .next := if_neg h

section Targets

variable {v : State} {n : FrameNo}

theorem State.targetRefusal_of_late (h : v.lead n = 0 ∨ 32767 < v.lead n) :
    v.targetRefusal (.atFrame n) =
      some (.answer .late (be2 n.toNat ++ be2 v.currentFrame.toNat ++ be2 (v.lead n))) :=
  if_pos h

theorem State.targetRefusal_of_far (hfar : 1024 < v.lead n) (hlate : v.lead n ≤ 32767) :
    v.targetRefusal (.atFrame n) =
      some (.answer .far (be2 n.toNat ++ be2 v.currentFrame.toNat ++ be2 (v.lead n))) :=
  (if_neg (by omega)).trans (if_pos hfar)

theorem State.targetRefusal_of_admissible (hpos : 1 ≤ v.lead n) (hle : v.lead n ≤ 1024) :
    v.targetRefusal (.atFrame n) = none :=
  (if_neg (by omega)).trans (if_neg (by omega))

/-- A target passes steps 3 and 4 where, for AT_FRAME, its lead is 1 to 1024. -/
theorem State.targetRefusal_targetOf {p : List Byte}
    (h : u1 p 0 = 1 → 1 ≤ v.lead (BitVec.ofNat 16 (u2 p 1)) ∧ v.lead (BitVec.ofNat 16 (u2 p 1)) ≤ 1024) :
    v.targetRefusal (targetOf p) = none := by
  by_cases hkind : u1 p 0 = 1
  · obtain ⟨hpos, hle⟩ := h hkind
    rw [targetOf_atFrame hkind]
    exact State.targetRefusal_of_admissible hpos hle
  · rw [targetOf_next hkind]
    rfl

end Targets

section Commit

variable {v : State} {p : List Byte}

theorem setCommitChecks_pass (h : u1 p 0 ≤ 1) : firstBad (setCommitChecks p) = none :=
  firstBad_eq_none (by simp [setCommitChecks, Nat.lt_succ_of_le h])

theorem State.takeSetCommit_of_pending {w : Scheduled} (h : u1 p 0 ≤ 1) (hsched : v.cset.scheduled = some w) :
    v.takeSetCommit p = (v, .answer .pending w.target.bytes) := by
  simp only [State.takeSetCommit, setCommitChecks_pass h, hsched]

theorem State.takeSetCommit_of_empty (h : u1 p 0 ≤ 1) (hsched : v.cset.scheduled = none)
    (hopen : v.cset.openSet = []) : v.takeSetCommit p = (v, .answer .setEmpty []) := by
  simp only [State.takeSetCommit, setCommitChecks_pass h, hsched, hopen, if_true]

theorem State.takeSetCommit_of_target {r : Reply} (h : u1 p 0 ≤ 1) (hsched : v.cset.scheduled = none)
    (hopen : v.cset.openSet ≠ []) (htarget : v.targetRefusal (targetOf p) = some r) :
    v.takeSetCommit p = (v, r) := by
  simp only [State.takeSetCommit, setCommitChecks_pass h, hsched, if_neg hopen, htarget]

theorem State.takeSetCommit_of_projection {r : Reply} (h : u1 p 0 ≤ 1) (hsched : v.cset.scheduled = none)
    (hopen : v.cset.openSet ≠ []) (htarget : v.targetRefusal (targetOf p) = none)
    (hproj : projectionRefusal v.store v.projection = some r) : v.takeSetCommit p = (v, r) := by
  simp only [State.takeSetCommit, setCommitChecks_pass h, hsched, if_neg hopen, htarget, hproj]

/-- The state after a commit is taken: the open set scheduled with its target (R51). -/
def State.committed (v : State) (t : Target) : State :=
  { v with cset := { v.cset with openSet := [], scheduled := some { edits := v.cset.openSet, target := t } } }

theorem State.takeSetCommit_of_pass (h : u1 p 0 ≤ 1) (hsched : v.cset.scheduled = none)
    (hopen : v.cset.openSet ≠ []) (htarget : v.targetRefusal (targetOf p) = none)
    (hproj : projectionRefusal v.store v.projection = none) :
    v.takeSetCommit p = (v.committed (targetOf p),
      .answer .ok (setCounts v.cset.openSet ++ (targetOf p).bytes ++ be2 (v.leadOf (targetOf p)))) := by
  simp only [State.takeSetCommit, setCommitChecks_pass h, hsched, if_neg hopen, htarget, hproj, State.committed]

/-- The target and the lead in a commit's OK, in numbers. -/
theorem State.commitData_eq (v : State) (p : List Byte) :
    (targetOf p).bytes ++ be2 (v.leadOf (targetOf p)) =
      if u1 p 0 = 1 then 1 :: be2 (u2 p 1) ++ be2 (v.lead (BitVec.ofNat 16 (u2 p 1))) else [0, 0, 0, 0, 0] := by
  by_cases hkind : u1 p 0 = 1
  · rw [targetOf_atFrame hkind, if_pos hkind]
    simp only [Target.bytes, State.leadOf, frameNo_toNat]
  · rw [targetOf_next hkind, if_neg hkind]
    simp only [Target.bytes, State.leadOf]
    decide

end Commit

theorem exec_setCommit {s t : State} {seq : SeqNo} {p payload : List Byte} {code : Code}
    (hready : s.settle.readyFor 0 seq) (hlen : p.length = 3)
    (howner : (s.settle.accepting 0 seq).takeSetCommit p = (t.accepting 0 seq, .answer code payload)) :
    exec (.setCommit 0 seq p) s = .next (t.answered 0 seq 0x08 code payload) :=
  exec_answered (k := .setCommit) hready (by decide) rfl (by simp [Kind.lengthAllowed, hlen]) (by omega) howner

/-- Settles O22: with every step of R48 passed, the owner schedules the open set. -/
theorem commitTaken : Obligations.CommitTaken := by
  refine ⟨fun _ => rfl, ?_⟩
  intro s seq p u n d hready hlen hkind hsched hopen hlead hclash hnamed hlong hload
  have hproj : projectionRefusal u.store u.projection = none :=
    (projectionRefusal_of_named hclash hnamed hlong).trans (if_neg (Nat.not_lt.mpr (peakLine_le_iff.mpr hload)))
  have htaken := exec_setCommit (t := u.committed (targetOf p)) hready hlen
    (State.takeSetCommit_of_pass (v := u.accepting 0 seq) hkind hsched hopen (State.targetRefusal_targetOf hlead) hproj)
  rw [List.append_assoc, State.commitData_eq] at htaken
  exact htaken

/-- Settles O23: the owner's checks in their order, each with the state it found. -/
theorem commitRefused : Obligations.CommitRefused := by
  intro s seq p u n d data hready hlen hkind
  have hnum : be2 n.toNat ++ be2 (u.timing.frame.getD 0).toNat ++ be2 d = data := by
    rw [frameNo_toNat]
  refine ⟨fun w hsched => ?_, fun hsched hopen => ?_, fun hsched hopen hat hlate => ?_,
    fun hsched hopen hat hfar hle => ?_, fun code payload hsched hopen hlead hproj => ?_⟩
  · exact exec_setCommit hready hlen (State.takeSetCommit_of_pending (v := u.accepting 0 seq) hkind hsched)
  · exact exec_setCommit hready hlen (State.takeSetCommit_of_empty (v := u.accepting 0 seq) hkind hsched hopen)
  · rw [← hnum]
    refine exec_setCommit hready hlen (State.takeSetCommit_of_target (v := u.accepting 0 seq) hkind hsched hopen ?_)
    rw [targetOf_atFrame hat]
    exact State.targetRefusal_of_late hlate
  · rw [← hnum]
    refine exec_setCommit hready hlen (State.takeSetCommit_of_target (v := u.accepting 0 seq) hkind hsched hopen ?_)
    rw [targetOf_atFrame hat]
    exact State.targetRefusal_of_far hfar hle
  · exact exec_setCommit hready hlen (State.takeSetCommit_of_projection (v := u.accepting 0 seq) hkind hsched hopen
      (State.targetRefusal_targetOf hlead) hproj)

/-! ## The staged references of a set, released (R60, R61, R85) -/

theorem namesSeg_iff (id : Nat) (e : Edit) :
    namesSeg id e = true ↔ ∃ i w, e = .winStage i w ∧ w.segment = some id := by
  cases e with
  | winStage i w =>
    constructor
    · exact fun h => ⟨i, w, rfl, eq_of_beq h⟩
    · rintro ⟨_, _, ⟨rfl, rfl⟩, h⟩
      exact beq_iff_eq.mpr h
  | winPlace => simp [namesSeg]
  | winShow => simp [namesSeg]
  | palStage => simp [namesSeg]
  | fillStage => simp [namesSeg]

theorem namesOf_append (a b : List Edit) (id : Nat) : namesOf (a ++ b) id = namesOf a id + namesOf b id := by
  simp [namesOf]

/-- A set of which no edit names a segment releases nothing. -/
theorem Store.released_of_unnamed {st : Store} {edits : List Edit} (h : ∀ id, namesOf edits id = 0) :
    st.released edits = st := by
  simp [Store.released, h]

/-- Two sets released one after the other are released together. -/
theorem Store.released_released (st : Store) (a b : List Edit) :
    (st.released a).released b = st.released (a ++ b) := by
  simp [Store.released, namesOf_append, Nat.sub_sub, Function.comp_def]

/-- One edit's release is one off the count of the segment it names. -/
theorem Store.releaseStaged_singleton (st : Store) (e : Edit) : st.releaseStaged [e] = st.released [e] := by
  cases e with
  | winStage i w =>
    cases hseg : w.segment with
    | none =>
      rw [Store.released_of_unnamed fun id => by simp [namesOf, namesSeg, hseg]]
      simp [Store.releaseStaged, hseg]
    | some id =>
      simp only [Store.releaseStaged, List.foldl_cons, List.foldl_nil, hseg, Store.stagedRelease, Store.update,
        Store.released]
      congr 2
      funext g
      by_cases hid : g.id = id
      · simp [namesOf, namesSeg, hseg, hid]
      · simp [namesOf, namesSeg, hseg, hid, Ne.symm hid]
  | winPlace => exact (Store.released_of_unnamed fun _ => rfl).symm
  | winShow => exact (Store.released_of_unnamed fun _ => rfl).symm
  | palStage => exact (Store.released_of_unnamed fun _ => rfl).symm
  | fillStage => exact (Store.released_of_unnamed fun _ => rfl).symm

/-- A set's releases, edit by edit, take from each segment's count the number of its edits that name it. -/
theorem Store.releaseStaged_eq_released (st : Store) (edits : List Edit) :
    st.releaseStaged edits = st.released edits := by
  induction edits generalizing st with
  | nil => exact (Store.released_of_unnamed fun _ => rfl).symm
  | cons e es ih =>
    calc st.releaseStaged (e :: es) = (st.releaseStaged [e]).releaseStaged es := rfl
      _ = (st.released [e]).released es := by rw [ih, Store.releaseStaged_singleton]
      _ = st.released (e :: es) := st.released_released [e] es

/-! ## SET_DISCARD and SET_WITHDRAW (R60, R61) -/

theorem State.takeSetDiscard_of_filled {v : State} (h : v.cset.openSet ≠ []) (p : List Byte) :
    v.takeSetDiscard p =
      ({ v with store := v.store.released v.cset.openSet, cset := { v.cset with openSet := [] } },
        .answer .ok (setCounts v.cset.openSet)) := by
  simp only [State.takeSetDiscard, if_neg h, Store.releaseStaged_eq_released]

theorem State.takeSetWithdraw_of_scheduled {v : State} {w : Scheduled} (h : v.cset.scheduled = some w)
    (p : List Byte) :
    v.takeSetWithdraw p =
      ({ v with store := v.store.released w.edits, cset := { v.cset with scheduled := none } },
        .answer .ok (w.target.bytes ++ [byte w.edits.length])) := by
  simp only [State.takeSetWithdraw, h, Store.releaseStaged_eq_released]

theorem State.takeSetWithdraw_of_none {v : State} (h : v.cset.scheduled = none) (p : List Byte) :
    v.takeSetWithdraw p = (v, .answer .noneScheduled (presentBe2 v.cset.lastApp)) := by
  simp only [State.takeSetWithdraw, h]

/-- Settles O25: the owner answers SET_EMPTY, or empties the open set and releases what it named. -/
theorem setDiscarded : Obligations.SetDiscarded := by
  refine ⟨namesSeg_iff, ?_⟩
  intro s seq u hready
  have answers {t : State} {code : Code} {payload : List Byte}
      (h : (u.accepting 0 seq).takeSetDiscard [] = (t.accepting 0 seq, .answer code payload)) :
      exec (.setDiscard 0 seq []) s = .next (t.answered 0 seq 0x09 code payload) :=
    exec_answered (k := .setDiscard) hready (by decide) rfl rfl (by decide) h
  exact ⟨fun hempty => answers (if_pos hempty),
    fun hfilled => answers (t := { u with cset := _, store := _ })
      (State.takeSetDiscard_of_filled (v := u.accepting 0 seq) hfilled [])⟩

/-- Settles O26: the owner answers NONE_SCHEDULED, or removes the scheduled set and releases what it named. -/
theorem setWithdrawn : Obligations.SetWithdrawn := by
  intro s seq u hready
  have answers {t : State} {code : Code} {payload : List Byte}
      (h : (u.accepting 0 seq).takeSetWithdraw [] = (t.accepting 0 seq, .answer code payload)) :
      exec (.setWithdraw 0 seq []) s = .next (t.answered 0 seq 0x0A code payload) :=
    exec_answered (k := .setWithdraw) hready (by decide) rfl rfl (by decide) h
  exact ⟨fun hnone => answers (State.takeSetWithdraw_of_none (v := u.accepting 0 seq) hnone []),
    fun w hsched => answers (t := { u with cset := _, store := _ })
      (State.takeSetWithdraw_of_scheduled (v := u.accepting 0 seq) hsched [])⟩

/-! ## SET_APPLICATION (R54 to R58) -/

theorem State.activeAcquire_eq_retag (u : State) (id : Nat) :
    u.activeAcquire id = { u with store := u.store.retag id fun g => { g with active := g.active + 1 } } := by
  rw [← Store.update_eq_retag]
  rfl

theorem State.activeMove_eq_windowMoved (u : State) (f : FrameNo) (old new : Option Nat) :
    u.activeMove f old new = u.windowMoved f old new := by
  unfold State.activeMove State.windowMoved
  split
  · rfl
  · cases new with
    | none => rfl
    | some id => exact State.activeAcquire_eq_retag _ id

/-- The moves of two tables' segments are the moves of their windows, pair by pair. -/
theorem State.activeMoves_segments (u : State) (f : FrameNo) (old new : List WindowRec) :
    u.activeMoves f (old.map (·.segment)) (new.map (·.segment)) =
      (old.zip new).foldl (fun v w => v.windowMoved f w.1.segment w.2.segment) u := by
  simp [State.activeMoves, List.zip_map, List.foldl_map, State.activeMove_eq_windowMoved]

theorem State.activeMoves_cset (u : State) (f : FrameNo) (old new : List (Option Nat)) :
    (u.activeMoves f old new).cset = u.cset := by
  obtain ⟨-, hcset, -⟩ := u.activeMoves_frame f old new
  exact hcset

/-- The state after a set's edits are written and its references moved, the set removed and recorded (R55, R56). -/
def State.recorded (s : State) (f : FrameNo) (set : Scheduled) : State :=
  { (s.comp.wins.zip (s.comp.writeAll set.edits).wins).foldl
      (fun v w => v.windowMoved f w.1.segment w.2.segment)
      { s with comp := s.comp.apply set.edits, store := s.store.released set.edits } with
    cset := { s.cset with scheduled := none, lastApp := some f } }

theorem State.applySet_eq (s : State) (f : FrameNo) (set : Scheduled) :
    s.applySet f set = (s.recorded f set).reportApplied f set := by
  simp only [State.applySet, Compositor.apply_wins, Store.releaseStaged_eq_released, State.activeMoves_cset]
  simp only [State.activeMoves_segments, State.recorded]

/-- The set that is applied at a head: all four conditions of R54 and R58 hold. -/
theorem State.dueSet_eq_some_iff (s : State) (f : FrameNo) (set : Scheduled) :
    s.dueSet = some (f, set) ↔ s.headOpen = true ∧ s.status.resetting = none ∧ s.timing.frame = some f ∧
      s.cset.scheduled = some set ∧ set.target.due f = true := by
  unfold State.dueSet
  constructor
  · intro h
    split at h
    · next hhead hreset hframe hsched =>
      split at h
      · next hdue =>
        obtain ⟨rfl, rfl⟩ : _ = f ∧ _ = set := by simpa using h
        exact ⟨hhead, hreset, hframe, hsched, hdue⟩
      · cases h
    · cases h
  · rintro ⟨hhead, hreset, hframe, hsched, hdue⟩
    simp [hhead, hreset, hframe, hsched, hdue]

theorem State.applyDue_of_due {s : State} {f : FrameNo} {set : Scheduled} (h : s.dueSet = some (f, set)) :
    s.applyDue = (s.recorded f set).reportApplied f set := by
  rw [← State.applySet_eq]
  simp only [State.applyDue, h]

theorem State.applyDue_of_none {s : State} (h : ∀ f set, s.dueSet ≠ some (f, set)) : s.applyDue = s := by
  unfold State.applyDue
  split
  · next f set hdue => exact absurd hdue (h f set)
  · rfl

/-- The APPLIED notice of a set at a head numbered `f` offered (R57). -/
def State.offerApplied (v : State) (f : FrameNo) (set : Scheduled) : State :=
  v.offerNotice .applied (be2 f.toNat ++ set.target.bytes ++ [byte set.edits.length])

theorem State.reportApplied_of_punctual (v : State) {f : FrameNo} {set : Scheduled}
    (h : set.target = .next ∨ set.target = .atFrame f) : v.reportApplied f set = v.offerApplied f set := by
  rcases h with h | h
  · simp only [State.reportApplied, State.offerApplied, h]
  · simp only [State.reportApplied, State.offerApplied, h, if_true]

theorem State.reportApplied_of_late (v : State) {f n : FrameNo} {set : Scheduled} (h : set.target = .atFrame n)
    (hne : f ≠ n) : v.reportApplied f set =
      ((v.offerApplied f set).raise .lateApply).offerNotice .lateApply (be2 n.toNat ++ be2 f.toNat) := by
  simp only [State.reportApplied, State.offerApplied, h, if_neg hne]

/-- Settles O27: the due set is applied as `recorded` says and reported by its target; with none due nothing happens. -/
theorem setApplied : Obligations.SetApplied := by
  constructor
  · intro s f set hhead hreset hframe hsched hdue written moved recorded reported
    have hduebool : set.target.due f = true := by
      cases h : set.target with
      | next => rfl
      | atFrame n =>
        rw [h] at hdue
        exact decide_eq_true hdue
    have happly : exec .setApplication s = .next (recorded.reportApplied f set) :=
      congrArg Host.Outcome.next (State.applyDue_of_due
        ((s.dueSet_eq_some_iff f set).mpr ⟨hhead, hreset, hframe, hsched, hduebool⟩))
    refine ⟨fun htime => ?_, fun n htarget hne => ?_⟩
    · rw [happly, State.reportApplied_of_punctual _ htime]
      rfl
    · rw [happly, State.reportApplied_of_late _ htarget hne]
      rfl
  · intro s hnot
    refine congrArg Host.Outcome.next (State.applyDue_of_none fun f set hdue => ?_)
    obtain ⟨hhead, hreset, hframe, hsched, hduebool⟩ := (s.dueSet_eq_some_iff f set).mp hdue
    rcases hnot with h | h | h | h | ⟨f', n, edits, hf', hset, hearly⟩
    · exact Bool.false_ne_true (h.symm.trans hhead)
    · exact h hreset
    · rw [h] at hsched
      cases hsched
    · rw [h] at hframe
      cases hframe
    · obtain rfl : f = f' := Option.some.inj (hframe.symm.trans hf')
      obtain rfl : set = _ := Option.some.inj (hsched.symm.trans hset)
      exact absurd (of_decide_eq_true hduebool) (Nat.not_lt.mpr hearly)

end Sys2Proof.Machine

namespace Sys2Proof.Machine

/-! ## Valid frames (R100, R101) -/

theorem InFrame.width?_eq_some_iff (fr : InFrame) (w : Nat) :
    fr.width? = some w ↔ fr.lines ≠ [] ∧ ∀ l ∈ fr.lines, l.2 = w := by
  unfold InFrame.width?
  cases fr.lines with
  | nil => simp
  | cons l ls =>
    simp only [Option.ite_none_right_eq_some, List.all_eq_true, beq_iff_eq, Option.some.injEq, ne_eq, reduceCtorEq,
      not_false_eq_true, true_and, List.forall_mem_cons]
    constructor
    · rintro ⟨hls, rfl⟩
      exact ⟨rfl, hls⟩
    · rintro ⟨rfl, hls⟩
      exact ⟨hls, rfl⟩

theorem InFrame.typesOk_iff (fr : InFrame) :
    fr.typesOk = true ↔
      ∃ w rest, fr.lines = (.frameHead, w) :: rest ∧ ∀ l ∈ rest, l.1 = .blank ∨ l.1 = .active := by
  unfold InFrame.typesOk
  cases fr.lines with
  | nil => simp
  | cons l ls =>
    obtain ⟨type, width⟩ := l
    simp only [Bool.and_eq_true, beq_iff_eq, List.all_eq_true, Bool.or_eq_true, List.cons.injEq, Prod.mk.injEq]
    constructor
    · rintro ⟨rfl, hls⟩
      exact ⟨width, ls, ⟨⟨rfl, rfl⟩, rfl⟩, hls⟩
    · rintro ⟨_, _, ⟨⟨rfl, rfl⟩, rfl⟩, hls⟩
      exact ⟨rfl, hls⟩

theorem InFrame.rangeBlank_iff (fr : InFrame) (r : MgmtRange) :
    fr.rangeBlank r = true ↔ ∀ i < r.count, ∃ w, fr.lines[r.first + i]? = some (.blank, w) := by
  simp only [InFrame.rangeBlank, List.all_eq_true, List.mem_range, Option.any_eq_true, beq_iff_eq, Prod.exists]
  refine forall₂_congr fun i _ => ⟨?_, ?_⟩
  · rintro ⟨_, w, hline, rfl⟩
    exact ⟨w, hline⟩
  · rintro ⟨w, hline⟩
    exact ⟨.blank, w, hline, rfl⟩

/-- The conditions of R101 on a completed frame whose lines have the common width `w`. -/
def InFrame.valid (fr : InFrame) (r : MgmtRange) (w : Nat) : Prop :=
  fr.headless = false ∧ fr.decodable = true ∧ (720 ≤ w ∧ w ≤ 4096) ∧
    (16 ≤ fr.activeCount ∧ fr.activeCount ≤ 4096) ∧ fr.lines.length ≤ 4200 ∧ fr.typesOk = true ∧
    fr.rangeBlank r = true

theorem InFrame.shape?_eq_some_iff (fr : InFrame) (r : MgmtRange) (duration : Nat) (sh : FrameShape) :
    fr.shape? r duration = some sh ↔
      fr.width? = some sh.geometry.width ∧ fr.valid r sh.geometry.width ∧
        sh = { geometry := ⟨sh.geometry.width, fr.activeCount, fr.lines.length⟩
               pattern := fr.lines.map (·.1)
               period := duration } := by
  unfold InFrame.shape?
  cases fr.width? with
  | none => simp
  | some w =>
    simp only [Option.ite_none_right_eq_some, Option.some.injEq, Bool.and_eq_true, Bool.not_eq_true', decide_eq_true_eq,
      InFrame.valid, and_assoc]
    constructor
    · rintro ⟨hheadless, hdec, hwlo, hwhi, halo, hahi, hlen, htypes, hblank, rfl⟩
      exact ⟨rfl, hheadless, hdec, hwlo, hwhi, halo, hahi, hlen, htypes, hblank, rfl⟩
    · rintro ⟨rfl, hheadless, hdec, hwlo, hwhi, halo, hahi, hlen, htypes, hblank, hsh⟩
      exact ⟨hheadless, hdec, hwlo, hwhi, halo, hahi, hlen, htypes, hblank, hsh.symm⟩

/-- Settles O37: the model's checks are R101's conditions, and the shape answered is the frame's. -/
theorem validFrame : Obligations.ValidFrame := by
  intro fr r duration sh
  rw [InFrame.shape?_eq_some_iff, InFrame.width?_eq_some_iff, InFrame.valid, InFrame.typesOk_iff,
    InFrame.rangeBlank_iff]
  obtain ⟨⟨width, active, total⟩, pattern, period⟩ := sh
  simp only [FrameShape.mk.injEq, Geometry.mk.injEq, true_and]
  constructor
  · rintro ⟨⟨_, hwidth⟩, ⟨hheadless, hdec, ⟨hwlo, hwhi⟩, ⟨halo, hahi⟩, hlen, htypes, hblank⟩, ⟨rfl, rfl⟩, rfl, rfl⟩
    exact ⟨hheadless, hdec, hwidth, hwlo, hwhi, rfl, halo, hahi, rfl, hlen, htypes, hblank, rfl, rfl⟩
  · rintro ⟨hheadless, hdec, hwidth, hwlo, hwhi, rfl, halo, hahi, rfl, hlen, htypes, hblank, rfl, rfl⟩
    have hlines : fr.lines ≠ [] := by
      obtain ⟨w, rest, hcons, _⟩ := htypes
      exact hcons ▸ List.cons_ne_nil _ _
    exact ⟨⟨hlines, hwidth⟩, ⟨hheadless, hdec, ⟨hwlo, hwhi⟩, ⟨halo, hahi⟩, hlen, htypes, hblank⟩, ⟨rfl, rfl⟩, rfl, rfl⟩

/-! ## Judging a frame (R102, R108, R109, R111, R112) -/

theorem sameGeometry_iff {a b : Option FrameShape} :
    sameGeometry a b = true ↔ ∃ x y, a = some x ∧ b = some y ∧ x.geometry = y.geometry := by
  cases a <;> cases b <;> simp [sameGeometry]

theorem State.matchAfter_same {s : State} {c sh : FrameShape} (hc : s.timing.candidate = some c)
    (hg : c.geometry = sh.geometry) : s.matchAfter (some sh) = s.timing.matchCount + 1 :=
  if_pos (sameGeometry_iff.mpr ⟨c, sh, hc, rfl, hg⟩)

theorem State.matchAfter_differs {s : State} {sh : FrameShape}
    (h : ∀ c, s.timing.candidate = some c → c.geometry ≠ sh.geometry) : s.matchAfter (some sh) = 1 := by
  refine if_neg fun hsame => ?_
  obtain ⟨c, _, hc, ⟨⟩, hg⟩ := sameGeometry_iff.mp hsame
  exact h c hc hg

/-- The match count reaches 2 exactly at a frame of the candidate's geometry after the first match (R108, R109). -/
theorem State.two_le_matchAfter_iff (s : State) (shape : Option FrameShape) :
    2 ≤ s.matchAfter shape ↔ 1 ≤ s.timing.matchCount ∧
      ∃ c sh, s.timing.candidate = some c ∧ shape = some sh ∧ c.geometry = sh.geometry := by
  cases shape with
  | none => simp [State.matchAfter]
  | some sh =>
    by_cases h : ∃ c, s.timing.candidate = some c ∧ c.geometry = sh.geometry
    · obtain ⟨c, hc, hg⟩ := h
      rw [State.matchAfter_same hc hg]
      exact ⟨fun h => ⟨by omega, c, sh, hc, rfl, hg⟩, fun ⟨h, _⟩ => by omega⟩
    · rw [State.matchAfter_differs fun c hc hg => h ⟨c, hc, hg⟩]
      refine ⟨fun h => absurd h (by decide), ?_⟩
      rintro ⟨_, c, _, hc, ⟨⟩, hg⟩
      exact absurd ⟨c, hc, hg⟩ h

theorem State.assess_of_lt {s : State} {shape : Option FrameShape} {n : Nat} (hn : s.matchAfter shape = n)
    (h : n < 2) :
    s.assess shape = { s with timing := { s.timing with candidate := shape, matchCount := n } } := by
  simp only [State.assess, hn, if_neg (Nat.not_le.mpr h)]

theorem State.assess_of_two {s : State} {shape : Option FrameShape} (h : 2 ≤ s.matchAfter shape) :
    s.assess shape =
      (({ s with timing := { s.timing with
            lock := .locked, recorded := shape, candidate := none, matchCount := 0, faultCount := 0,
            holdoverCount := 0 } } : State).raise .lockChange).offerNotice .lockState
        ([byte s.timing.lock.code, 2, 1] ++ presentBe2 s.timing.frame) := by
  simp only [State.assess, if_pos h]
  rfl

theorem State.judgeFrame_of_assessing {s : State} (h : s.timing.lock = .acquiring ∨ s.timing.lock = .rejoining)
    (shape : Option FrameShape) : s.judgeFrame shape = s.assess shape := by
  unfold State.judgeFrame
  rcases h with h | h <;> rw [h]

theorem State.judgeFrame_of_locked {s : State} (h : s.timing.lock = .locked) (shape : Option FrameShape) :
    s.judgeFrame shape = s.judgeLocked shape := by
  unfold State.judgeFrame
  rw [h]

/-- The lock after one more faulted frame, before R112 is looked at: the count raised and the flag set (R111). -/
def State.faulted (s : State) : State :=
  ({ s with timing := { s.timing with faultCount := s.timing.faultCount + 1 } } : State).raise .geometryFault

theorem State.judgeLocked_good {s : State} {shape : Option FrameShape}
    (h : sameGeometry s.timing.recorded shape = true) :
    s.judgeLocked shape = { s with timing := { s.timing with faultCount := 0, recorded := shape } } := by
  simp only [State.judgeLocked, if_pos h]

theorem State.judgeLocked_fault {s : State} {shape : Option FrameShape}
    (h : ¬ sameGeometry s.timing.recorded shape = true) :
    s.judgeLocked shape = if 2 ≤ s.timing.faultCount then
        s.faulted.leaveLocked .fault (s.timing.recorded.map fun sh => { shape := sh, next := 0, ownHead := true })
      else s.faulted := by
  simp only [State.judgeLocked, if_neg h]
  exact ite_congr (propext (Nat.succ_le_succ_iff (a := 2))) (fun _ => rfl) fun _ => rfl

theorem State.leaveLocked_of_noHoldover {s : State} (h : s.status.params.holdoverLimit = 0) (cause : LockCause)
    (gen : Option Generator) : s.leaveLocked cause gen = s.enterNoSignal cause :=
  if_pos h

theorem State.leaveLocked_of_holdover {s : State} (h : s.status.params.holdoverLimit ≠ 0) (cause : LockCause)
    (gen : Option Generator) :
    s.leaveLocked cause gen =
      (({ s with
          link := { s.link with inFrame := none }
          timing := { s.timing with
            lock := .holdover, holdoverCount := 0, absence := false, gen := gen } } : State).raise
        .lockChange).offerNotice .lockState
        ([byte s.timing.lock.code, 3, byte cause.code] ++ presentBe2 s.timing.frame) :=
  if_neg h

/-- Settles O38: by the lock state, and there by how the frame's geometry compares. -/
theorem completedFrameJudged : Obligations.CompletedFrameJudged := by
  refine fun s shape => ⟨fun hlock => ?_, fun rec hlock hrec => ?_⟩
  · rw [State.judgeFrame_of_assessing hlock]
    refine ⟨?_, ?_⟩
    · rintro rfl
      exact State.assess_of_lt rfl (by decide)
    · rintro sh rfl
      refine ⟨fun hdiff => State.assess_of_lt (State.matchAfter_differs hdiff) (by decide),
        fun c hc hg hzero => ?_, fun c hc hg hpos => ?_⟩
      · exact State.assess_of_lt ((State.matchAfter_same hc hg).trans (congrArg (· + 1) hzero)) (by decide)
      · exact State.assess_of_two (by rw [State.matchAfter_same hc hg]; omega)
  · rw [State.judgeFrame_of_locked hlock]
    refine ⟨?_, fun hdiff => ?_⟩
    · rintro sh rfl hg
      exact State.judgeLocked_good (sameGeometry_iff.mpr ⟨rec, sh, hrec, rfl, hg.symm⟩)
    · have hfault : ¬ sameGeometry s.timing.recorded shape = true := by
        rw [hrec, sameGeometry_iff]
        rintro ⟨_, sh, ⟨⟩, hsh, hg⟩
        exact hdiff sh hsh hg.symm
      rw [State.judgeLocked_fault hfault]
      refine ⟨fun hlt => if_neg (Nat.not_le.mpr hlt), fun hthird hlimit => ?_, fun hthird hlimit => ?_⟩
      · rw [if_pos hthird]
        exact State.leaveLocked_of_noHoldover (s := s.faulted) hlimit _ _
      · rw [if_pos hthird, State.leaveLocked_of_holdover (s := s.faulted) hlimit, hrec]
        simp only [State.faulted, State.raise_timing, hlock]
        rfl

end Sys2Proof.Machine

namespace Sys2Proof.Machine

/-! ## A notice offered, by its three outcomes (R183) -/

theorem State.offerNotice_of_room {s : State} {k : NoticeKind} (hkind : s.status.params.noticeEnabled k = true)
    (hroom : s.pkt.total < 16) (data : List Byte) :
    s.offerNotice k data = { s with pkt := s.pkt.fill (s.noticePacket k data) false } := by
  have hroom : s.pkt.room = true := decide_eq_true hroom
  simp only [State.offerNotice, hkind, hroom, if_true]

theorem State.offerNotice_of_full {s : State} {k : NoticeKind} (hkind : s.status.params.noticeEnabled k = true)
    (hfull : 16 ≤ s.pkt.total) (data : List Byte) : s.offerNotice k data = s.raise .noticeDropped := by
  have hroom : s.pkt.room = false := decide_eq_false (Nat.not_lt.mpr hfull)
  simp only [State.offerNotice, hkind, hroom, if_true, Bool.false_eq_true, if_false]

theorem State.offerNotice_of_disabled {s : State} {k : NoticeKind} (hkind : s.status.params.noticeEnabled k = false)
    (data : List Byte) : s.offerNotice k data = s := by
  simp only [State.offerNotice, hkind, Bool.false_eq_true, if_false]

/-- A notice changes no item of the Status Unit but the flags. -/
theorem State.offerNotice_status (s : State) (k : NoticeKind) (data : List Byte) :
    (s.offerNotice k data).status.params = s.status.params ∧
      (s.offerNotice k data).status.address = s.status.address ∧
      (s.offerNotice k data).status.resetting = s.status.resetting ∧
      (s.offerNotice k data).status.lastReset = s.status.lastReset := by
  rcases s.offerNotice_cases k data with ⟨_, _, h⟩ | ⟨_, _, h⟩ | ⟨_, h⟩ <;> simp [h]

/-- A notice changes nothing of the Packet Unit but its filled entries. -/
theorem State.offerNotice_pkt (s : State) (k : NoticeKind) (data : List Byte) :
    (s.offerNotice k data).pkt.inRange = s.pkt.inRange ∧
      (s.offerNotice k data).pkt.outRange = s.pkt.outRange ∧
      (s.offerNotice k data).pkt.reserved = s.pkt.reserved := by
  rcases s.offerNotice_cases k data with ⟨_, _, h⟩ | ⟨_, _, h⟩ | ⟨_, h⟩ <;> simp [h]

/-- A flag that is set stays set when a notice is offered. -/
theorem State.offerNotice_lockChange {s : State} (h : s.status.flags.lockChange = true) (k : NoticeKind)
    (data : List Byte) : (s.offerNotice k data).status.flags.lockChange = true := by
  rcases s.offerNotice_cases k data with ⟨_, _, heq⟩ | ⟨_, _, heq⟩ | ⟨_, heq⟩ <;> rw [heq] <;> exact h

/-! ## The report of an entry to NO_SIGNAL (R120) -/

theorem Params.noticeEnabled_lockState (q : Params) : q.noticeEnabled .lockState = (q.noticeMask % 2 == 1) := by
  simp [Params.noticeEnabled, NoticeKind.weight]

/-- The LOCK_STATE notice of an entry to NO_SIGNAL. -/
def noSignalNotice (address : BitVec 5) (left : LockState) (cause : LockCause) : List Byte :=
  packetOf address 0 0 0x40 .ok 0 [1, byte left.code, 0, byte cause.code, 0, 0, 0]

/-- The state with LOCK_CHANGE set, from which the notice is offered. -/
theorem State.reportLock_noSignal (v : State) (left : LockState) (cause : LockCause) :
    v.reportLock left .noSignal cause =
      (v.raise .lockChange).offerNotice .lockState [byte left.code, 0, byte cause.code, 0, 0, 0] := rfl

theorem State.noticePacket_noSignal {v : State} (hframe : v.timing.frame = none) (left : LockState)
    (cause : LockCause) :
    (v.raise .lockChange).noticePacket .lockState [byte left.code, 0, byte cause.code, 0, 0, 0] =
      noSignalNotice v.status.address left cause := by
  simp only [State.noticePacket, State.packet, State.raise_timing, hframe]
  rfl

section Report

variable {v : State} {left : LockState} {cause : LockCause}

theorem State.reportLock_noSignal_of_room (hframe : v.timing.frame = none)
    (hmask : v.status.params.noticeMask % 2 = 1) (hroom : v.pkt.total < 16) :
    v.reportLock left .noSignal cause =
      { v.raise .lockChange with pkt := v.pkt.fill (noSignalNotice v.status.address left cause) false } := by
  have hkind : (v.raise .lockChange).status.params.noticeEnabled .lockState = true :=
    (Params.noticeEnabled_lockState v.status.params).trans (beq_iff_eq.mpr hmask)
  rw [State.reportLock_noSignal, State.offerNotice_of_room hkind hroom, State.noticePacket_noSignal hframe]
  rfl

theorem State.reportLock_noSignal_of_full (hmask : v.status.params.noticeMask % 2 = 1) (hfull : 16 ≤ v.pkt.total) :
    v.reportLock left .noSignal cause = (v.raise .lockChange).raise .noticeDropped := by
  have hkind : (v.raise .lockChange).status.params.noticeEnabled .lockState = true :=
    (Params.noticeEnabled_lockState v.status.params).trans (beq_iff_eq.mpr hmask)
  rw [State.reportLock_noSignal, State.offerNotice_of_full hkind hfull]

theorem State.reportLock_noSignal_of_disabled (hmask : v.status.params.noticeMask % 2 = 0) :
    v.reportLock left .noSignal cause = v.raise .lockChange := by
  have hkind : (v.raise .lockChange).status.params.noticeEnabled .lockState = false :=
    (Params.noticeEnabled_lockState v.status.params).trans (by simp [hmask])
  rw [State.reportLock_noSignal, State.offerNotice_of_disabled hkind]

end Report

/-- What a report of any change of lock state leaves of the Status Unit. -/
theorem State.reportLock_status (v : State) (left entered : LockState) (cause : LockCause) :
    (v.reportLock left entered cause).status.params = v.status.params ∧
      (v.reportLock left entered cause).status.address = v.status.address ∧
      (v.reportLock left entered cause).status.resetting = v.status.resetting ∧
      (v.reportLock left entered cause).status.lastReset = v.status.lastReset :=
  (v.raise .lockChange).offerNotice_status .lockState _

/-- What it leaves of the Packet Unit. -/
theorem State.reportLock_pkt (v : State) (left entered : LockState) (cause : LockCause) :
    (v.reportLock left entered cause).pkt.inRange = v.pkt.inRange ∧
      (v.reportLock left entered cause).pkt.outRange = v.pkt.outRange ∧
      (v.reportLock left entered cause).pkt.reserved = v.pkt.reserved :=
  (v.raise .lockChange).offerNotice_pkt .lockState _

theorem State.reportLock_lockChange (v : State) (left entered : LockState) (cause : LockCause) :
    (v.reportLock left entered cause).status.flags.lockChange = true :=
  State.offerNotice_lockChange rfl _ _

/-! ## The entry to NO_SIGNAL in its three steps (R118): silence, a waiting reset, the report -/

/-- The output silent, the Timing Unit's items at their values, no window shown. -/
def State.silenced (s : State) : State :=
  { s with
    timing := Timing.reset
    link := { s.link with inFrame := none, vout := .silent, cut := decide (s.link.vout ≠ .silent) }
    comp := s.comp.hideAll }

/-- The part in NO_SIGNAL before the report: silenced, and with the effect of a reset that waited. -/
def State.quieted (s : State) : State := s.silenced.resetAtNoSignal

theorem State.enterNoSignal_eq (s : State) (cause : LockCause) :
    s.enterNoSignal cause = s.quieted.reportLock s.timing.lock .noSignal cause := by
  unfold State.enterNoSignal State.quieted State.silenced
  cases h : s.link.vout <;> rfl

section Quieted

variable {s : State}

theorem State.quieted_of_none (h : s.status.resetting = none) : s.quieted = s.silenced := by
  have h' : s.silenced.status.resetting = none := h
  simp only [State.quieted, State.resetAtNoSignal, h']

/-- The marked OK dropped from the queue of the silenced part (R139). -/
def State.unmarked (s : State) : State :=
  { s.silenced with pkt := { s.pkt with filled := s.pkt.filled.filter fun e => !e.marked } }

theorem State.quieted_of_overlay (h : s.status.resetting = some .overlay) :
    s.quieted = s.unmarked.overlayReset .noSignal := by
  have h' : s.silenced.status.resetting = some .overlay := h
  simp only [State.quieted, State.resetAtNoSignal, State.resetEffect, h']
  rfl

theorem State.quieted_of_full (h : s.status.resetting = some .full) :
    s.quieted = s.unmarked.fullReset .noSignal := by
  have h' : s.silenced.status.resetting = some .full := h
  simp only [State.quieted, State.resetAtNoSignal, State.resetEffect, h']
  rfl

/-- A reset waits with the one scope or the other, or none waits. -/
theorem State.quieted_cases (s : State) :
    (s.status.resetting = none ∧ s.quieted = s.silenced) ∨
      (s.status.resetting = some .overlay ∧ s.quieted = s.unmarked.overlayReset .noSignal) ∨
      (s.status.resetting = some .full ∧ s.quieted = s.unmarked.fullReset .noSignal) := by
  cases h : s.status.resetting with
  | none => exact .inl ⟨rfl, State.quieted_of_none h⟩
  | some scope =>
    cases scope with
    | overlay => exact .inr (.inl ⟨rfl, State.quieted_of_overlay h⟩)
    | full => exact .inr (.inr ⟨rfl, State.quieted_of_full h⟩)

/-- What no waiting reset has a say in. -/
theorem State.quieted_frame (s : State) :
    s.quieted.timing = Timing.reset ∧ s.quieted.link = s.silenced.link ∧ s.quieted.comp.latch = s.comp.latch ∧
      s.quieted.status.resetting = none ∧ s.quieted.status.params = s.status.params ∧
      s.quieted.status.address = s.status.address ∧ s.quieted.headOpen = s.headOpen ∧
      s.quieted.pending = s.pending ∧ s.quieted.store.mem = s.store.mem ∧
      s.quieted.pkt.inRange = s.pkt.inRange ∧ s.quieted.pkt.outRange = s.pkt.outRange ∧
      s.quieted.pkt.fillClock = s.pkt.fillClock := by
  rcases s.quieted_cases with ⟨hr, h⟩ | ⟨_, h⟩ | ⟨_, h⟩
  · rw [h]
    exact ⟨rfl, rfl, rfl, hr, rfl, rfl, rfl, rfl, rfl, rfl, rfl, rfl⟩
  · rw [h]
    exact ⟨rfl, rfl, rfl, rfl, rfl, rfl, rfl, rfl, rfl, rfl, rfl, rfl⟩
  · rw [h]
    exact ⟨rfl, rfl, rfl, rfl, rfl, rfl, rfl, rfl, Store.fullReset_mem _, rfl, rfl, rfl⟩

theorem WinSlot.resetAll_hidden : ∀ sl ∈ WinSlot.resetAll, sl.shown = false := by
  simp [WinSlot.resetAll]

theorem State.quieted_hidden (s : State) : ∀ sl ∈ s.quieted.comp.slots, sl.shown = false := by
  rcases s.quieted_cases with ⟨_, h⟩ | ⟨_, h⟩ | ⟨_, h⟩ <;> rw [h]
  · show ∀ sl ∈ s.comp.slots.map fun sl => { sl with shown := false }, sl.shown = false
    simp
  · exact WinSlot.resetAll_hidden
  · exact WinSlot.resetAll_hidden

/-- A reset of either scope puts the tables and the change sets at their reset values (R20, R32, R63). -/
theorem State.quieted_reset (h : s.status.resetting ≠ none) :
    s.quieted.comp = { Compositor.reset with latch := s.comp.latch } ∧ s.quieted.cset = ChangeSet.reset := by
  rcases s.quieted_cases with ⟨hr, _⟩ | ⟨_, hq⟩ | ⟨_, hq⟩
  · exact absurd hr h
  · rw [hq]
    exact ⟨rfl, rfl⟩
  · rw [hq]
    exact ⟨rfl, rfl⟩

/-- The queue and the flags that the report finds: what the waiting reset, if any, leaves of them (R139, R189). -/
theorem State.quieted_queue {left : List Entry} {held : Nat} {flags : Flags}
    (h : (s.status.resetting = none ∧ left = s.pkt.filled ∧ held = left.length + s.pkt.reserved.length ∧
          flags = s.status.flags) ∨
        (s.status.resetting = some .overlay ∧ left = s.pkt.filled.filter (fun e => !e.marked) ∧
          held = left.length + s.pkt.reserved.length ∧ flags = s.status.flags) ∨
        (s.status.resetting = some .full ∧ left = [] ∧ held = 0 ∧ flags = Flags.clear)) :
    s.quieted.pkt.filled = left ∧ s.quieted.pkt.total = held ∧ s.quieted.status.flags = flags := by
  rcases h with ⟨hr, rfl, rfl, rfl⟩ | ⟨hr, rfl, rfl, rfl⟩ | ⟨hr, rfl, rfl, rfl⟩
  · rw [State.quieted_of_none hr]
    exact ⟨rfl, rfl, rfl⟩
  · rw [State.quieted_of_overlay hr]
    exact ⟨rfl, rfl, rfl⟩
  · rw [State.quieted_of_full hr]
    exact ⟨rfl, rfl, rfl⟩

end Quieted

/-! ### The state that is entered -/

theorem State.enterNoSignal_timing (s : State) (cause : LockCause) : (s.enterNoSignal cause).timing = Timing.reset := by
  rw [State.enterNoSignal_eq, State.reportLock_timing]
  exact s.quieted_frame.1

theorem State.enterNoSignal_link (s : State) (cause : LockCause) : (s.enterNoSignal cause).link =
    { s.link with inFrame := none, vout := .silent, cut := decide (s.link.vout ≠ .silent) } := by
  rw [State.enterNoSignal_eq, State.reportLock_link]
  exact s.quieted_frame.2.1

/-- The flags and the queue after the report, by NOTICE_MASK and by the room the queue has (R120, R183). -/
theorem State.enterNoSignal_report {s : State} {left : List Entry} {held : Nat} {flags : Flags} (cause : LockCause)
    (hfilled : s.quieted.pkt.filled = left) (htotal : s.quieted.pkt.total = held)
    (hflags : s.quieted.status.flags = flags) :
    let t := s.enterNoSignal cause
    let changed := { flags with lockChange := true }
    (s.status.params.noticeMask % 2 = 1 → held < 16 → t.status.flags = changed ∧
        t.pkt.filled = left ++ [{ packet := noSignalNotice s.status.address s.timing.lock cause, marked := false,
                                  fillTime := s.pkt.fillClock }]) ∧
      (s.status.params.noticeMask % 2 = 1 → 16 ≤ held →
        t.status.flags = { changed with noticeDropped := true } ∧ t.pkt.filled = left) ∧
      (s.status.params.noticeMask % 2 = 0 → t.status.flags = changed ∧ t.pkt.filled = left) := by
  obtain ⟨htiming, -, -, -, hparams, haddress, -, -, -, -, -, hclock⟩ := s.quieted_frame
  subst hfilled htotal hflags
  rw [← hparams, ← haddress, ← hclock, State.enterNoSignal_eq]
  refine ⟨fun hmask hroom => ?_, fun hmask hfull => ?_, fun hmask => ?_⟩
  · rw [State.reportLock_noSignal_of_room (by rw [htiming]; rfl) hmask hroom]
    exact ⟨rfl, rfl⟩
  · rw [State.reportLock_noSignal_of_full hmask hfull]
    exact ⟨rfl, rfl⟩
  · rw [State.reportLock_noSignal_of_disabled hmask]
    exact ⟨rfl, rfl⟩

theorem ChannelUnit.reset_get (ch : Chan) : ChannelUnit.reset.get ch = ChanRec.reset := by
  match ch with
  | 0 => rfl
  | 1 => rfl
  | 2 => rfl
  | 3 => rfl

/-- Settles O40: the report leaves what the quieted part holds, but for the queue and the flags. -/
theorem noSignalEntered : Obligations.NoSignalEntered := by
  intro s cause t
  obtain ⟨-, -, hlatch, hresetting, hparams, haddress, hhead, hpending, hmem, hin, hout, -⟩ := s.quieted_frame
  have ht : t = s.quieted.reportLock s.timing.lock .noSignal cause := s.enterNoSignal_eq cause
  obtain ⟨rparams, raddress, rresetting, rlast⟩ := s.quieted.reportLock_status s.timing.lock .noSignal cause
  obtain ⟨rin, rout, rreserved⟩ := s.quieted.reportLock_pkt s.timing.lock .noSignal cause
  rw [← ht] at rparams raddress rresetting rlast rin rout rreserved
  have hcomp : t.comp = s.quieted.comp := by rw [ht, State.reportLock_comp]
  have hcset : t.cset = s.quieted.cset := by rw [ht, State.reportLock_cset]
  have hstore : t.store = s.quieted.store := by rw [ht, State.reportLock_store]
  have hchn : t.chn = s.quieted.chn := by rw [ht, State.reportLock_chn]
  refine ⟨s.enterNoSignal_timing cause, s.enterNoSignal_link cause, hcomp ▸ s.quieted_hidden,
    (congrArg Compositor.latch hcomp).trans hlatch, ht ▸ State.reportLock_lockChange _ _ _ _,
    rresetting.trans hresetting, rparams.trans hparams, raddress.trans haddress,
    (ht ▸ State.reportLock_headOpen _ _ _ _).trans hhead, (ht ▸ State.reportLock_pending _ _ _ _).trans hpending,
    (congrArg Store.mem hstore).trans hmem, rin.trans hin, rout.trans hout, rfl, fun hwaits => ?_,
    fun left held flags hwaits => ?_, fun hnone => ?_, fun hoverlay => ?_, fun hfull => ?_⟩
  · obtain ⟨hqcomp, hqcset⟩ := State.quieted_reset hwaits
    rw [hcomp, hcset, hqcomp, hqcset]
    exact ⟨rfl, rfl, rfl, rfl⟩
  · obtain ⟨hfilled, htotal, hflags⟩ := State.quieted_queue hwaits
    exact State.enterNoSignal_report cause hfilled htotal hflags
  · have hq := State.quieted_of_none hnone
    rw [hq] at hcomp hcset hstore hchn rlast rreserved
    rw [hcomp, hcset, hstore, hchn, rlast, rreserved]
    exact ⟨rfl, s.comp.hideAll_wins, rfl, rfl, rfl, rfl, rfl, rfl, rfl⟩
  · have hq := State.quieted_of_overlay hoverlay
    rw [hq] at hstore hchn rlast rreserved
    rw [hstore, hchn, rlast, rreserved]
    exact ⟨rfl, rfl, rfl, rfl⟩
  · have hq := State.quieted_of_full hfull
    obtain ⟨hfilled, htotal, hflags⟩ := State.quieted_queue (.inr (.inr ⟨hfull, rfl, rfl, rfl⟩))
    obtain ⟨hadmitted, -, hdisabled⟩ := State.enterNoSignal_report cause hfilled htotal hflags
    rw [hq] at hstore hchn rlast rreserved
    have hchan (ch : Chan) : t.chan ch = ChanRec.reset := by
      show t.chn.get ch = _
      rw [hchn]
      exact ChannelUnit.reset_get ch
    refine ⟨rlast, hstore, hchan, rreserved, ?_⟩
    rcases Nat.mod_two_eq_zero_or_one s.status.params.noticeMask with hmask | hmask
    · obtain ⟨tflags, tfilled⟩ := hdisabled hmask
      rw [if_neg (by omega)]
      exact ⟨tflags, congrArg (List.map (·.packet)) tfilled⟩
    · obtain ⟨tflags, tfilled⟩ := hadmitted hmask (by decide)
      rw [if_pos hmask]
      exact ⟨tflags, congrArg (List.map (·.packet)) tfilled⟩

/-! ## Absence (R105, R106, R110, R113, R117) -/

theorem State.absenceInterval_of_uncandidated {s : State} (hlock : s.timing.lock = .acquiring)
    (hc : s.timing.candidate = none) : s.absenceInterval = 16384 := by
  simp only [State.absenceInterval, hlock, hc]

theorem State.absenceInterval_of_candidate {s : State} {sh : FrameShape}
    (hlock : s.timing.lock = .acquiring ∨ s.timing.lock = .rejoining) (hc : s.timing.candidate = some sh) :
    s.absenceInterval = s.status.params.lossInterval * sh.period / sh.geometry.totalLines := by
  rcases hlock with hlock | hlock <;> simp only [State.absenceInterval, State.linePeriod, hlock, hc]

theorem State.absenceInterval_of_recorded {s : State} {sh : FrameShape}
    (hlock : s.timing.lock = .locked ∨ (s.timing.lock = .rejoining ∧ s.timing.candidate = none))
    (hr : s.timing.recorded = some sh) :
    s.absenceInterval = s.status.params.lossInterval * sh.period / sh.geometry.totalLines := by
  rcases hlock with hlock | ⟨hlock, hc⟩
  · simp only [State.absenceInterval, State.linePeriod, hlock, hr]
  · simp only [State.absenceInterval, State.linePeriod, hlock, hc, hr]

theorem exec_absenceExpiry (s : State) (n : Nat) : exec (.absenceExpiry n) s =
    .next (if s.settle.timing.absence && s.settle.absenceInterval ≤ n then s.settle.absence else s.settle) := rfl

theorem exec_absenceExpiry_of_passed {s : State} {n : Nat} (hruns : s.settle.timing.absence = true)
    (hpassed : s.settle.absenceInterval ≤ n) : exec (.absenceExpiry n) s = .next s.settle.absence := by
  rw [exec_absenceExpiry, if_pos (by simp [hruns, hpassed])]

theorem State.absence_of_idle {s : State} (h : s.timing.lock = .noSignal ∨ s.timing.lock = .holdover) :
    s.absence = s := by
  unfold State.absence
  rcases h with h | h <;> rw [h]

theorem State.absence_of_acquiring {s : State} (h : s.timing.lock = .acquiring) :
    s.absence = s.enterNoSignal .absence := by
  unfold State.absence
  rw [h]

theorem State.absence_of_locked {s : State} (h : s.timing.lock = .locked) :
    s.absence = s.leaveLocked .absence s.takeoverGen := by
  unfold State.absence
  rw [h]

theorem State.absence_of_rejoining {s : State} (h : s.timing.lock = .rejoining) : s.absence = s.leaveRejoining := by
  unfold State.absence
  rw [h]

theorem State.leaveRejoining_of_noHoldover {s : State} (h : s.status.params.holdoverLimit = 0) :
    s.leaveRejoining = s.enterNoSignal .absence :=
  if_pos h

theorem State.leaveRejoining_of_holdover {s : State} (h : s.status.params.holdoverLimit ≠ 0) :
    s.leaveRejoining =
      (({ s with
          link := { s.link with inFrame := none }
          timing := { s.timing with
            lock := .holdover, candidate := none, matchCount := 0, absence := false } } : State).raise
        .lockChange).offerNotice .lockState
        ([byte s.timing.lock.code, 3, 2] ++ presentBe2 s.timing.frame) :=
  if_neg h

/-- The part in HOLDOVER after an absence in LOCKED, with this generator, and its report (R113). -/
theorem exec_absenceExpiry_of_locked {s : State} {n : Nat} (hruns : s.settle.timing.absence = true)
    (hpassed : s.settle.absenceInterval ≤ n) (hlock : s.settle.timing.lock = .locked)
    (hlimit : s.settle.status.params.holdoverLimit ≠ 0) {gen : Option Generator} (hgen : s.settle.takeoverGen = gen) :
    exec (.absenceExpiry n) s = .next
      ((({ s.settle with
          link := { s.settle.link with inFrame := none }
          timing := { s.settle.timing with
            lock := .holdover, holdoverCount := 0, absence := false, gen := gen } } : State).raise
        .lockChange).offerNotice .lockState ([2, 3, 2] ++ presentBe2 s.settle.timing.frame)) := by
  rw [exec_absenceExpiry_of_passed hruns hpassed, State.absence_of_locked hlock,
    State.leaveLocked_of_holdover hlimit, hgen, hlock]
  rfl

/-- Settles O39: the interval by the lock state and the shape in force; then the expiry by the lock state. -/
theorem absenceExpires : Obligations.AbsenceExpires := by
  refine fun s n => ⟨fun hidle => ?_, State.absenceInterval_of_uncandidated,
    fun _ => State.absenceInterval_of_candidate, fun _ => State.absenceInterval_of_recorded,
    fun hruns hpassed => ⟨fun hlock => ?_, fun hlock hlimit => ?_, fun hlock hlimit => ?_,
      fun g hlock hlimit hgen => ?_, fun sh fr hlock hlimit hrec hgen hframe => ?_⟩⟩
  · rw [exec_absenceExpiry]
    rcases hidle with h | h | h
    · rw [if_neg (by simp [h])]
    · rw [if_neg (by simp [h])]
    · rw [State.absence_of_idle h, ite_self]
  · rw [exec_absenceExpiry_of_passed hruns hpassed, State.absence_of_acquiring hlock]
  · rw [exec_absenceExpiry_of_passed hruns hpassed]
    rcases hlock with hlock | hlock
    · rw [State.absence_of_locked hlock, State.leaveLocked_of_noHoldover hlimit]
    · rw [State.absence_of_rejoining hlock, State.leaveRejoining_of_noHoldover hlimit]
  · rw [exec_absenceExpiry_of_passed hruns hpassed, State.absence_of_rejoining hlock,
      State.leaveRejoining_of_holdover hlimit, hlock]
    rfl
  · have htakeover : s.settle.takeoverGen = s.settle.timing.gen := by simp only [State.takeoverGen, hgen]
    exact exec_absenceExpiry_of_locked hruns hpassed hlock hlimit htakeover
  · refine exec_absenceExpiry_of_locked hruns hpassed hlock hlimit ?_
    simp only [State.takeoverGen, hgen, hrec, hframe, Option.map_some, Bool.or_eq_true, decide_eq_true_eq]

end Sys2Proof.Machine

namespace Sys2Proof.Machine

/-! ## The generator's next line (R114, R115) -/

theorem exec_generatorLineBegin (s : State) : exec .generatorLineBegin s = .next s.settle.generatorBegin := rfl

theorem exec_holdoverLimitReached (s : State) : exec .holdoverLimitReached s =
    .next (if s.settle.headIsNext && limitReached s.settle.status.params.holdoverLimit s.settle.timing.raisedHoldover
      then s.settle.generatorHead else s.settle) := rfl

theorem State.headIsNext_iff (s : State) : s.headIsNext = true ↔
    (s.timing.lock = .holdover ∨ s.timing.lock = .rejoining) ∧ ∃ g, s.timing.gen = some g ∧ g.next = 0 := by
  simp [State.headIsNext, Option.any_eq_true]

theorem limitReached_iff {limit count : Nat} :
    limitReached limit count = true ↔ limit = 0 ∨ (limit ≤ 65534 ∧ limit ≤ count) := by
  simp [limitReached]

theorem State.generatorBegin_of_stopped {s : State} (h : s.timing.gen = none) : s.generatorBegin = s := by
  simp only [State.generatorBegin, h]

theorem State.generatorBegin_of_head {s : State} (h : s.headIsNext = true) : s.generatorBegin = s.generatorHead := by
  obtain ⟨g, hgen, hnext⟩ := (s.headIsNext_iff.mp h).2
  simp only [State.generatorBegin, hgen, hnext, h, if_true]

theorem State.generatorBegin_of_relocked {s : State} {g : Generator} (hgen : s.timing.gen = some g)
    (hnext : g.next = 0) (h : ¬ s.headIsNext = true) : s.generatorBegin = s := by
  simp only [State.generatorBegin, hgen, if_pos hnext, if_neg h]

theorem State.generatorBegin_of_line {s : State} {g : Generator} (hgen : s.timing.gen = some g)
    (hnext : g.next ≠ 0) : s.generatorBegin = s.generatorLine g := by
  simp only [State.generatorBegin, hgen, if_neg hnext]

theorem exec_holdoverLimitReached_of_noHead {s : State} (h : ¬ s.settle.headIsNext = true) :
    exec .holdoverLimitReached s = .next s.settle := by
  rw [exec_holdoverLimitReached, if_neg (by simp [h])]

theorem State.generatorHead_of_limit {s : State}
    (h : limitReached s.status.params.holdoverLimit s.timing.raisedHoldover = true) :
    s.generatorHead = s.enterNoSignal .limit :=
  if_pos h

theorem exec_holdoverLimitReached_of_limit {s : State} (hdue : s.settle.headIsNext = true)
    (h : limitReached s.settle.status.params.holdoverLimit s.settle.timing.raisedHoldover = true) :
    exec .holdoverLimitReached s = .next (s.settle.enterNoSignal .limit) := by
  rw [exec_holdoverLimitReached, if_pos (by simp [hdue, h]), State.generatorHead_of_limit h]

theorem exec_holdoverLimitReached_of_belowLimit {s : State}
    (h : ¬ limitReached s.settle.status.params.holdoverLimit s.settle.timing.raisedHoldover = true) :
    exec .holdoverLimitReached s = .next s.settle := by
  rw [exec_holdoverLimitReached, if_neg (by simp [h])]

/-- Below the limit the head is emitted, with the number one above the current one (R114). -/
theorem State.generatorHead_of_belowLimit {s : State} {sh : FrameShape}
    (h : ¬ limitReached s.status.params.holdoverLimit s.timing.raisedHoldover = true)
    (hrec : s.timing.recorded = some sh) :
    s.generatorHead =
      ({ s with timing := { s.timing with holdoverCount := s.timing.raisedHoldover } } : State).emitHead sh := by
  refine (if_neg h).trans ?_
  simp only [hrec]

/-- Settles O41: no head where none is due; a due one by the limit. -/
theorem generatedHead : Obligations.GeneratedHead := by
  constructor
  · refine fun s => ⟨fun hgen => ⟨?_, ?_⟩, fun g hgen => ⟨fun hholdover hrejoining hnext => ?_, fun hno => ?_⟩⟩
    · rw [exec_generatorLineBegin, State.generatorBegin_of_stopped hgen]
    · refine exec_holdoverLimitReached_of_noHead ?_
      simp [State.headIsNext_iff, hgen]
    · rw [exec_generatorLineBegin, State.generatorBegin_of_relocked hgen hnext]
      simp [State.headIsNext_iff, hholdover, hrejoining]
    · refine exec_holdoverLimitReached_of_noHead fun hdue => ?_
      obtain ⟨hlock, g', hgen', hnext⟩ := (State.headIsNext_iff _).mp hdue
      obtain rfl : g = g' := Option.some.inj (hgen.symm.trans hgen')
      rcases hno with ⟨hholdover, hrejoining⟩ | hinside
      · exact hlock.elim hholdover hrejoining
      · exact hinside hnext
  · intro s g sh u count limit f hlock hgen hnext hrec
    have hdue : u.headIsNext = true := (State.headIsNext_iff u).mpr ⟨hlock, g, hgen, hnext⟩
    refine ⟨fun hlimit => ?_, fun hbelow => ?_⟩
    · have hreached : limitReached limit count = true := limitReached_iff.mpr hlimit
      refine ⟨?_, exec_holdoverLimitReached_of_limit hdue hreached⟩
      rw [exec_generatorLineBegin, State.generatorBegin_of_head hdue, State.generatorHead_of_limit hreached]
    · have hnot : ¬ limitReached limit count = true := by
        rw [limitReached_iff]
        omega
      refine ⟨exec_holdoverLimitReached_of_belowLimit hnot, ?_⟩
      rw [exec_generatorLineBegin, State.generatorBegin_of_head hdue, State.generatorHead_of_belowLimit hnot hrec]
      rfl

/-! ## Any other generated line (R114, R131) -/

theorem fillBase_getElem? (c : Colour) (width x : Nat) :
    (fillBase c width)[x]? = if x < width then some ⟨c.y, if x % 2 = 0 then c.cb else c.cr⟩ else none := by
  unfold fillBase
  rw [List.getElem?_map]
  by_cases h : x < width
  · rw [List.getElem?_range h, if_pos h]
    rfl
  · rw [List.getElem?_eq_none (by simpa using h), if_neg h]
    rfl

theorem MgmtRange.holds_iff (r : MgmtRange) (pos : Nat) :
    r.holds pos = true ↔ r.first ≤ pos ∧ pos < r.first + r.count := by
  simp [MgmtRange.holds]

/-- The REF_CLK periods from a frame's head to the generator's next line, in a frame of its own (R114). -/
def Generator.offset (g : Generator) : Option Nat :=
  if g.ownHead then some (g.shape.lineOffset g.next) else none

/-- The generator one line further. -/
def State.generatorMoved (s : State) (g : Generator) : State :=
  { s with timing := { s.timing with
    gen := some { g with next := nextPosition g.shape.geometry.totalLines g.next } } }

section GeneratorLine

variable (s : State) {g : Generator}

theorem State.generatorLine_active (h : g.shape.pattern[g.next]? = some .active) :
    s.generatorLine g = { s.generatorMoved g with
      link := { s.link.emits .active (s.composeLine s.link.nextY (fillBase s.comp.fill g.shape.geometry.width))
        .generator g.offset with nextY := s.link.nextY + 1 } } := by
  simp only [State.generatorLine, h, Option.getD_some]
  rfl

theorem State.generatorLine_blank (h : g.shape.pattern[g.next]? = some .blank)
    (hout : s.pkt.outRange.holds g.next = false) :
    s.generatorLine g = { s.generatorMoved g with
      link := s.link.emits .blank (emptyLine g.shape.geometry.width) .generator g.offset } := by
  simp only [State.generatorLine, h, Option.getD_some, hout, Bool.false_eq_true, if_false]
  rfl

theorem State.generatorLine_free (h : g.shape.pattern[g.next]? = some .blank)
    (hout : s.pkt.outRange.holds g.next = true) :
    s.generatorLine g = (s.generatorMoved g).emitFree g.shape.geometry.width .generator g.offset := by
  simp only [State.generatorLine, h, Option.getD_some, hout, if_true]
  rfl

end GeneratorLine

/-- Settles O42: by the line's type in the generator's pattern, and for a BLANK line by the outbound range. -/
theorem generatedLine : Obligations.GeneratedLine := by
  intro s g u offset v hgen hnext
  have hexec : exec .generatorLineBegin s = .next (u.generatorLine g) := by
    rw [exec_generatorLineBegin, State.generatorBegin_of_line hgen hnext]
  rw [hexec]
  refine ⟨fun hactive => ?_, fun hblank hout => ?_, fun hblank hfirst hlast => ?_, fillBase_getElem? _ _⟩
  · rw [State.generatorLine_active u hactive]
    rfl
  · rw [State.generatorLine_blank u hblank (Bool.eq_false_iff.mpr (mt (MgmtRange.holds_iff _ _).mp hout))]
    rfl
  · rw [State.generatorLine_free u hblank ((MgmtRange.holds_iff _ _).mpr ⟨hfirst, hlast⟩)]
    rfl

end Sys2Proof.Machine

namespace Sys2Proof.Machine

/-! ## Bytes of a line (R98, R132) -/

/-- The lane word carries a byte (R98). -/
def Lane.isByte (v : Lane) : Prop := 0x100 ≤ v.toNat ∧ v.toNat ≤ 0x1FF

theorem laneByte?_of_byte {v : Lane} (h : Lane.isByte v) : laneByte? v = some (byte (v.toNat - 0x100)) := by
  obtain ⟨hlo, hhi⟩ := h
  refine (if_pos ⟨hlo, hhi⟩).trans (congrArg some (BitVec.eq_of_toNat_eq ?_))
  rw [BitVec.toNat_setWidth, byte, BitVec.toNat_ofNat]
  omega

theorem laneByte?_of_noByte {v : Lane} (h : ¬ Lane.isByte v) : laneByte? v = none := if_neg h

/-- The chroma of R132's word, beside a last odd byte, is no byte. -/
theorem Lane.emptyChroma_noByte : ¬ Lane.isByte 0x200 := by
  unfold Lane.isByte
  decide

section Bytes

variable {w : DataWord} (ws : List DataWord)

theorem lineBytes_cons_pair (hluma : Lane.isByte w.luma) (hchroma : Lane.isByte w.chroma) :
    lineBytes (w :: ws) = byte (w.luma.toNat - 0x100) :: byte (w.chroma.toNat - 0x100) :: lineBytes ws := by
  simp only [lineBytes, laneByte?_of_byte hluma, laneByte?_of_byte hchroma]

theorem lineBytes_cons_end (h : ¬ (Lane.isByte w.luma ∧ Lane.isByte w.chroma)) : lineBytes (w :: ws) = [] := by
  by_cases hluma : Lane.isByte w.luma
  · simp only [lineBytes, laneByte?_of_byte hluma, laneByte?_of_noByte fun hchroma => h ⟨hluma, hchroma⟩]
  · simp only [lineBytes, laneByte?_of_noByte hluma]

theorem lastOddByte_cons_pair (hluma : Lane.isByte w.luma) (hchroma : Lane.isByte w.chroma) :
    lastOddByte (w :: ws) = lastOddByte ws := by
  simp only [lastOddByte, laneByte?_of_byte hluma, laneByte?_of_byte hchroma]

theorem lastOddByte_cons_odd (hluma : Lane.isByte w.luma) (hchroma : w.chroma = 0x200) :
    lastOddByte (w :: ws) = [byte (w.luma.toNat - 0x100)] := by
  simp only [lastOddByte, laneByte?_of_byte hluma, hchroma, laneByte?_of_noByte Lane.emptyChroma_noByte, if_true]

theorem lastOddByte_cons_end (h : ¬ (Lane.isByte w.luma ∧ Lane.isByte w.chroma))
    (hodd : ¬ (Lane.isByte w.luma ∧ w.chroma = 0x200)) : lastOddByte (w :: ws) = [] := by
  by_cases hluma : Lane.isByte w.luma
  · simp only [lastOddByte, laneByte?_of_byte hluma, laneByte?_of_noByte fun hchroma => h ⟨hluma, hchroma⟩,
      if_neg fun hchroma => hodd ⟨hluma, hchroma⟩]
  · simp only [lastOddByte, laneByte?_of_noByte hluma]

end Bytes

theorem startsPacket_iff (bs : List Byte) : startsPacket bs = true ↔ bs.head? = some 0xC3 := by
  simp [startsPacket]

theorem packetStream_eq (data : List DataWord) : packetStream data =
    if (lineBytes data).head? = some 0xC3 ∧ 14 + u2 (lineBytes data) 6 = (lineBytes data).length + 1 then
      lineBytes data ++ lastOddByte data
    else lineBytes data := by
  unfold packetStream lacksLastByte
  simp only [Bool.and_eq_true, startsPacket_iff, beq_iff_eq]

/-! ## The disposition of a management line (R125 to R127) -/

/-- The bytes hold a packet whole (R125). -/
def holdsPacket (bs : List Byte) : Prop :=
  bs.head? = some 0xC3 ∧ 14 ≤ bs.length ∧ u2 bs 6 ≤ 1024 ∧ 14 + u2 bs 6 ≤ bs.length

/-- The bytes hold a packet whose CRC-16 agrees (R126). -/
def packetPasses (bs : List Byte) : Prop :=
  holdsPacket bs ∧ (crc16 (bs.take (12 + u2 bs 6))).toNat = u2 bs (12 + u2 bs 6)

theorem malformed_iff (bs : List Byte) :
    malformed bs = true ↔ ¬ (14 ≤ bs.length ∧ u2 bs 6 ≤ 1024 ∧ 14 + u2 bs 6 ≤ bs.length) := by
  simp only [malformed, Bool.or_eq_true, decide_eq_true_eq]
  omega

theorem crcAgrees_iff (bs : List Byte) :
    crcAgrees bs = true ↔ (crc16 (bs.take (12 + u2 bs 6))).toNat = u2 bs (12 + u2 bs 6) := by
  simp [crcAgrees]

theorem packetPasses_iff (bs : List Byte) :
    packetPasses bs ↔ startsPacket bs = true ∧ ¬ (malformed bs || !crcAgrees bs) = true := by
  rw [packetPasses, holdsPacket, startsPacket_iff, Bool.or_eq_true, malformed_iff, Bool.not_eq_true', not_or,
    Classical.not_not, Bool.not_eq_false, crcAgrees_iff, and_assoc]

theorem packetFails_iff (bs : List Byte) :
    packetFails bs = true ↔ bs.head? = some 0xC3 ∧ ¬ packetPasses bs := by
  rw [packetFails, Bool.and_eq_true, packetPasses_iff, ← startsPacket_iff]
  refine and_congr_right fun hstart => ?_
  rw [not_and, Classical.not_not]
  exact ⟨fun hfails _ => hfails, fun h => h hstart⟩

section Dispositions

variable (address : BitVec 5) {bs : List Byte}

theorem disposition_of_noPacket (h : bs.head? ≠ some 0xC3) : disposition address bs = .free := by
  rw [Ne, ← startsPacket_iff] at h
  simp [disposition, h]

theorem disposition_of_failing (hstart : bs.head? = some 0xC3) (h : ¬ packetPasses bs) :
    disposition address bs = .forwarded := by
  rw [← startsPacket_iff] at hstart
  rw [packetPasses_iff, not_and, Classical.not_not] at h
  simp only [disposition, hstart, Bool.not_true, Bool.false_eq_true, if_false, h hstart, if_true]

/-- What is left to decide of a packet that passes: its format, its direction and its address. -/
theorem disposition_of_passing (h : packetPasses bs) : disposition address bs =
    if u1 bs 1 / 16 ≠ 1 then .forwarded
    else if u1 bs 1 % 2 = 1 then .forwarded
    else if u1 bs 2 = address.toNat then .consumed (fragmentOf bs)
    else if u1 bs 2 = 63 then .broadcast (fragmentOf bs)
    else .forwarded := by
  obtain ⟨hstart, hwhole⟩ := (packetPasses_iff bs).mp h
  simp only [disposition, hstart, Bool.not_true, Bool.false_eq_true, if_false, if_neg hwhole]

theorem disposition_of_noCommand (h : packetPasses bs) (hno : u1 bs 1 / 16 ≠ 1 ∨ u1 bs 1 % 2 = 1) :
    disposition address bs = .forwarded := by
  rw [disposition_of_passing address h]
  rcases hno with hno | hno
  · rw [if_pos hno]
  · rw [if_pos hno, ite_self]

/-- A command goes by its destination alone. -/
theorem disposition_of_command (h : packetPasses bs ∧ u1 bs 1 / 16 = 1 ∧ u1 bs 1 % 2 = 0) : disposition address bs =
    if u1 bs 2 = address.toNat then .consumed (fragmentOf bs)
    else if u1 bs 2 = 63 then .broadcast (fragmentOf bs)
    else .forwarded := by
  obtain ⟨hpasses, hversion, hdirection⟩ := h
  rw [disposition_of_passing address hpasses, if_neg (Classical.not_not.mpr hversion), if_neg (by omega)]

end Dispositions

/-- The LAST bit is the top bit of the fragment byte (section 11.3). -/
theorem fragmentOf_eq (bs : List Byte) : fragmentOf bs =
    { ch := Fin.ofNat 4 (u1 bs 3), index := u1 bs 3 / 16 % 8, last := decide (128 ≤ u1 bs 3)
      seq := BitVec.ofNat 4 (u1 bs 4), kind := (bs[5]?).getD 0, payload := (bs.drop 12).take (u2 bs 6) } := by
  have hlast : (u1 bs 3 / 128 == 1) = decide (128 ≤ u1 bs 3) := by
    have := u1_lt bs 3
    rw [Bool.eq_iff_iff, beq_iff_eq, decide_eq_true_iff]
    omega
  rw [fragmentOf, hlast]

/-- Settles O45: word by word for the bytes, and row by row of R127's table for the disposition. -/
theorem lineDisposition : Obligations.LineDisposition := by
  refine ⟨rfl, rfl, packetStream_eq, fun w ws => ⟨fun hluma hchroma =>
    ⟨lineBytes_cons_pair ws hluma hchroma, lastOddByte_cons_pair ws hluma hchroma⟩, lineBytes_cons_end ws,
    lastOddByte_cons_end ws, lastOddByte_cons_odd ws⟩, ?_⟩
  intro address bs complete passes command
  refine ⟨disposition_of_noPacket address, fun hstart hfails =>
    ⟨disposition_of_failing address hstart hfails, (packetFails_iff bs).mpr ⟨hstart, hfails⟩⟩, fun h => ?_,
    disposition_of_noCommand address, fun hcommand hother hall => ?_, ?_⟩
  · rw [Bool.eq_false_iff, Ne, packetFails_iff]
    exact fun ⟨hstart, hfails⟩ => h.elim (· hstart) hfails
  · rw [disposition_of_command address hcommand, if_neg hother, if_neg hall]
  · rintro f hcommand rfl
    rw [disposition_of_command address hcommand, fragmentOf_eq]
    refine ⟨fun hmine => if_pos hmine, fun hall => ?_⟩
    have hother : u1 bs 2 ≠ address.toNat := by
      have := address.isLt
      omega
    rw [if_neg hother, if_pos hall]

end Sys2Proof.Machine

namespace Sys2Proof.Machine

/-! ## Message kinds: codes, channels, lengths (R141, R164, R165) -/

theorem Kind.mem_all (k : Kind) : k ∈ Kind.all := by
  cases k <;> decide

theorem Kind.ofCode?_eq_some_iff (b : Byte) (k : Kind) : Kind.ofCode? b = some k ↔ k.code = b := by
  constructor
  · intro h
    simpa using List.find?_some h
  · rintro rfl
    exact k.ofCode?_code

theorem Kind.ofCode?_eq_some_iff_mem (b : Byte) (k : Kind) :
    Kind.ofCode? b = some k ↔ (b, k) ∈ Kind.all.map fun k => (k.code, k) := by
  rw [Kind.ofCode?_eq_some_iff, List.mem_map]
  constructor
  · rintro rfl
    exact ⟨k, k.mem_all, rfl⟩
  · rintro ⟨_, _, ⟨⟩⟩
    rfl

theorem Kind.onChannel_iff (k : Kind) (ch : Chan) : k.onChannel ch = true ↔
    match k with
    | .segWrite => ch ≠ 0
    | .segClose => ch ≠ 0
    | .resync => True
    | _ => ch = 0 := by
  cases k <;> simp [Kind.onChannel]

theorem Kind.lengthAllowed_iff (k : Kind) (p : List Byte) : k.lengthAllowed p = true ↔ k.allowsLength p := by
  cases k
  case paramSet =>
    simp only [Kind.lengthAllowed, Kind.allowsLength, Bool.and_eq_true, beq_iff_eq, decide_eq_true_eq]
    constructor
    · rintro ⟨⟨hthree, hlo⟩, hhi⟩
      exact ⟨p.length / 3, hlo, hhi, by omega⟩
    · rintro ⟨n, hlo, hhi, hlen⟩
      omega
  all_goals simp only [Kind.lengthAllowed, Kind.allowsLength, Bool.and_eq_true, beq_iff_eq, decide_eq_true_eq]

theorem Kind.fitted_toNat (k : Kind) (p : List Byte) {n : Nat} (h : n < 65536) : (k.fitted p n).toNat = n := by
  rw [Kind.fitted, if_pos h, BitVec.toNat_ofNat]
  exact Nat.mod_eq_of_lt h

theorem Kind.requiredLength_of_stated {k : Kind} {p : List Byte} {n : Nat} (h : k.statedLength p = some n)
    (hn : n < 65536) : (k.requiredLength p).toNat = n := by
  cases k
  case winStage =>
    obtain rfl := Option.some.inj h
    simp only [Kind.requiredLength]
    split
    · rfl
    · next hshort => exact Kind.fitted_toNat _ p (by rwa [if_neg hshort] at hn)
  case palStage =>
    obtain rfl := Option.some.inj h
    simp only [Kind.requiredLength]
    split
    · rfl
    · next hshort => exact Kind.fitted_toNat _ p (by rwa [if_neg hshort] at hn)
  case segWrite =>
    obtain ⟨_, h⟩ := Option.ite_none_right_eq_some.mp h
    obtain rfl := Option.some.inj h
    rfl
  case paramSet =>
    obtain ⟨hshort, h⟩ := Option.ite_none_right_eq_some.mp h
    obtain rfl := Option.some.inj h
    exact congrArg BitVec.toNat (if_pos hshort)
  case paramQuery =>
    obtain ⟨hshort, h⟩ := Option.ite_none_right_eq_some.mp h
    obtain rfl := Option.some.inj h
    exact congrArg BitVec.toNat (if_pos hshort)
  all_goals
    obtain rfl := Option.some.inj h
    rfl

/-- A kind that a channel does not take requires channel 0, or the three bulk channels (section 11.10). -/
theorem Kind.channelWeights_of_wrong {k : Kind} {ch : Chan} (h : k.onChannel ch = false) :
    k.channelWeights = if k = .segWrite ∨ k = .segClose then 14 else 1 := by
  cases k
  case resync => cases h
  all_goals rfl

/-! ## When messages are taken (R99, R107, R133) -/

theorem State.takesLines_iff (u : State) : u.takesLines = true ↔
    (u.timing.lock = .acquiring ∨ u.timing.lock = .locked ∨ u.timing.lock = .rejoining) ∧ u.timing.frame ≠ none := by
  unfold State.takesLines State.outputRuns
  cases u.timing.lock <;> simp [Option.isSome_iff_ne_none]

theorem exec_command_of_noLines {s : State} (h : s.settle.takesLines = false) (k : Kind) (ch : Chan) (seq : SeqNo)
    (p : List Byte) : exec (k.command ch seq p) s = .next s.settle := by
  rw [exec_command, State.receive, h]
  rfl

/-! ## The generic checks (R149, R150) -/

section GenericChecks

variable {u : State} {kind : Byte} {ch : Chan} {p : List Byte}

theorem State.genericRefusal_badKind (h : Kind.ofCode? kind = none) :
    u.genericRefusal kind ch p = some (.badKind, [kind]) := by
  simp only [State.genericRefusal, h]

theorem State.genericRefusal_wrongChannel {k : Kind} (hk : Kind.ofCode? kind = some k)
    (hch : k.onChannel ch = false) :
    u.genericRefusal kind ch p =
      some (.wrongChannel, [byte ch.val, if k = .segWrite ∨ k = .segClose then 14 else 1]) := by
  simp only [State.genericRefusal, hk, hch, Bool.not_false, if_true, Kind.channelWeights_of_wrong hch, apply_ite byte]
  rfl

theorem State.genericRefusal_badLength {k : Kind} (hk : Kind.ofCode? kind = some k) (hch : k.onChannel ch = true)
    (hlen : k.lengthAllowed p = false) :
    u.genericRefusal kind ch p = some (.badLength, be2 p.length ++ be2 (k.requiredLength p).toNat) := by
  simp only [State.genericRefusal, hk, hch, hlen, Bool.not_true, Bool.not_false, if_true, Bool.false_eq_true, if_false]

theorem State.genericRefusal_resets {k : Kind} (hk : Kind.ofCode? kind = some k) (hch : k.onChannel ch = true)
    (hlen : k.lengthAllowed p = true) (hreset : u.status.resetting ≠ none) :
    u.genericRefusal kind ch p = some (.resetting, []) := by
  have hreset : u.status.resetting.isSome = true := Option.isSome_iff_ne_none.mpr hreset
  simp only [State.genericRefusal, hk, hch, hlen, hreset, Bool.not_true, if_true, Bool.false_eq_true, if_false]

/-- A message that finds room and is refused by the generic checks: answered and cached while the part is not
RESETTING, else answered only (R150). -/
theorem State.complete_refused {code : Code} {data : List Byte} (seq : SeqNo) (hroom : u.pkt.total < 16)
    (h : u.genericRefusal kind ch p = some (code, data)) :
    (u.status.resetting = none → u.complete ch seq kind p = u.answered ch seq kind code data) ∧
      (u.status.resetting ≠ none → u.complete ch seq kind p =
        { u.queued (u.packet ch seq kind code data) with
          chn := u.chn.set ch { u.chan ch with state := .idle, assembly := none } }) := by
  have hroom : u.pkt.room = true := decide_eq_true hroom
  have hrefused : ((u.dropAssembly ch).reserve ch).genericRefusal kind ch p = some (code, data) := h
  have hjudge : u.complete ch seq kind p = ((u.dropAssembly ch).reserve ch).judge ch seq kind p := by
    simp only [State.complete, State.dropAssembly_pkt, hroom, if_true]
  refine ⟨fun hreset => ?_, fun hreset => ?_⟩
  · have hnot : ((u.dropAssembly ch).reserve ch).status.resetting.isSome = false :=
      Option.isSome_eq_false_iff.mpr (Option.isNone_iff_eq_none.mpr hreset)
    simp only [hjudge, State.judge, hrefused, hnot, Bool.false_eq_true, if_false]
    exact u.accepting_answerWith ch seq kind code data
  · have hresets : ((u.dropAssembly ch).reserve ch).status.resetting.isSome = true :=
      Option.isSome_iff_ne_none.mpr hreset
    simp only [hjudge, State.judge, hrefused, hresets, if_true, State.reserve_fillReserved]
    rfl

end GenericChecks

/-- Settles O51: the tables of the kinds, then the reservation, then the checks in their order. -/
theorem messageReservedAndChecked : Obligations.MessageReservedAndChecked := by
  refine ⟨Kind.ofCode?_eq_some_iff_mem, Kind.ofCode?_code, Kind.onChannel_iff, Kind.lengthAllowed_iff,
    fun _ _ _ => Kind.requiredLength_of_stated, State.takesLines_iff,
    fun s k ch seq p h => exec_command_of_noLines h k ch seq p,
    ?_, ?_⟩
  · intro s k ch seq p u hk hlines hidle hseq hp hfull
    rw [exec_command, State.receive_of_next u ch seq p hk hlines hidle hseq hp,
      u.complete_dropped k.code ch seq p (decide_eq_false (Nat.not_lt.mpr hfull))]
    rfl
  · intro u ch seq kind p code data hroom hrefused
    refine State.complete_refused seq hroom ?_
    rcases hrefused with ⟨hk, rfl, rfl⟩ | ⟨k, hk, hch, rfl, rfl⟩ | ⟨k, hk, hch, hlen, rfl, rfl⟩ |
      ⟨k, hk, hch, hlen, hreset, rfl, rfl⟩
    · exact State.genericRefusal_badKind hk
    · exact State.genericRefusal_wrongChannel hk hch
    · exact State.genericRefusal_badLength hk hch hlen
    · exact State.genericRefusal_resets hk hch hlen hreset

end Sys2Proof.Machine

namespace Sys2Proof.Machine

/-! ## A completed line, by the lock state and by its type (R103, R117, R131) -/

theorem State.handed_eq_handOn (u : State) (f : Option Fragment) : u.handed f = u.handOn f := by
  cases f <;> rfl

section CompleteLine

variable {u : State} {fr : InFrame} (data : List DataWord)

theorem State.completeLine_of_follows (hf : u.follows) (hi : u.link.inFrame = some fr) :
    u.completeLine data = (u.framed (fr.withLine data)).relay fr data := by
  unfold State.completeLine
  rcases hf with hf | hf <;> simp only [hi, hf] <;> rfl

theorem State.completeLine_of_rejoining (hl : u.timing.lock = .rejoining) (hi : u.link.inFrame = some fr) :
    u.completeLine data = (u.framed (fr.withLine data)).examineOnly fr data := by
  simp only [State.completeLine, hi, hl]
  rfl

variable (s : State)

theorem State.relay_unknown {x : Lane} (h : fr.openType = .unknown x) :
    s.relay fr data = ({ s with link := s.link.emits (.unknown x) data .input none }, none) := by
  simp only [State.relay, h]
  rfl

theorem State.relay_frameHead (h : fr.openType = .frameHead) : s.relay fr data = (s.relayHead data, none) := by
  simp only [State.relay, h]

theorem State.relay_blank (h : fr.openType = .blank) :
    s.relay fr data = s.relayBlank fr fr.lines.length data := by
  simp only [State.relay, h]

theorem State.relay_active_headless (h : fr.openType = .active) (hheadless : fr.headless = true) :
    s.relay fr data = ({ s with link := s.link.emits .active data .input none }, none) := by
  simp only [State.relay, h, State.relayActive, hheadless, if_true]
  rfl

theorem State.relay_active_uncomposed (h : fr.openType = .active) (hheadless : fr.headless = false)
    (hlatch : s.comp.latch = .acquiring ∨ s.comp.latch = .noSignal) :
    s.relay fr data =
      ({ s with link := { s.link.emits .active data .input none with nextY := s.link.nextY + 1 } }, none) := by
  have hcomposed : s.comp.latch.composed = false := by
    rcases hlatch with hlatch | hlatch <;> rw [hlatch] <;> rfl
  simp only [State.relay, h, State.relayActive, hheadless, hcomposed, Bool.false_eq_true, if_false]
  rfl

theorem State.relay_active_composed (h : fr.openType = .active) (hheadless : fr.headless = false)
    (hlatch : s.comp.latch = .locked ∨ s.comp.latch = .holdover ∨ s.comp.latch = .rejoining) :
    s.relay fr data =
      ({ s with link := { s.link.emits .active (s.composeLine s.link.nextY data) .input none with
          nextY := s.link.nextY + 1 } }, none) := by
  have hcomposed : s.comp.latch.composed = true := s.comp.latch.composed_iff.mpr hlatch
  simp only [State.relay, h, State.relayActive, hheadless, hcomposed, Bool.false_eq_true, if_false, if_true]
  rfl

theorem State.relayBlank_unmanaged {pos : Nat} (h : fr.headless = true ∨ s.pkt.inRange.holds pos = false) :
    s.relayBlank fr pos data = ({ s with link := s.link.emits .blank data .input none }, none) := by
  have hno : ¬ (!fr.headless && s.pkt.inRange.holds pos) = true := by
    rcases h with h | h <;> simp [h]
  exact if_neg hno

/-- A management line: its flag, its content by its disposition, and the packet it hands on. -/
theorem State.relayBlank_managed {pos : Nat} (hheadless : fr.headless = false)
    (hrange : s.pkt.inRange.holds pos = true) {d : Disposition}
    (hd : disposition s.status.address (packetStream data) = d) :
    s.relayBlank fr pos data =
      ((s.flagPacket (packetStream data)).relayManaged d (!s.pkt.outRange.holds pos) data, d.fragment?) := by
  subst hd
  exact if_pos (by simp [hheadless, hrange])

theorem State.flagPacket_putLine (bytes : List Byte) (type : LineType) (source : LineSource) (offset : Option Nat) :
    (s.flagPacket bytes).putLine type data source offset =
      { s.flagPacket bytes with link := s.link.emits type data source offset } := by
  rw [State.putLine, State.flagPacket_link]
  rfl

theorem State.examineOnly_unmanaged (h : fr.headless = true ∨ fr.openType ≠ .blank ∨
    s.pkt.inRange.holds fr.lines.length = false) : s.examineOnly fr data = (s, none) := by
  have hno : ¬ (!fr.headless && fr.openType == .blank && s.pkt.inRange.holds fr.lines.length) = true := by
    rcases h with h | h | h <;> simp [h]
  exact if_neg hno

theorem State.examineOnly_managed (hheadless : fr.headless = false) (hblank : fr.openType = .blank)
    (hrange : s.pkt.inRange.holds fr.lines.length = true) {d : Disposition}
    (hd : disposition s.status.address (packetStream data) = d) :
    s.examineOnly fr data = (s.flagPacket (packetStream data), d.fragment?) := by
  subst hd
  exact if_pos (by simp [hheadless, hblank, hrange])

end CompleteLine

/-! ## A marker that completes a line and opens the next (R96, R97) -/

theorem exec_lineMarker (w : Lane) (data : List DataWord) (n : Nat) (s : State) :
    exec (.lineMarker w data n) s = .next (s.settle.marker w data n) := rfl

theorem State.marker_of_unfollowed {s : State} {w : Lane} (hw : w ≠ 0x26C)
    (h : s.timing.lock = .noSignal ∨ s.timing.lock = .holdover) (data : List DataWord) (n : Nat) :
    s.marker w data n = s := by
  refine (if_neg hw).trans ?_
  rcases h with h | h <;> rw [h]

section Marker

variable {u : State} {fr : InFrame} {w : Lane} (data : List DataWord) (n : Nat)

theorem State.marker_of_followed (hw : w ≠ 0x26C)
    (hl : u.timing.lock = .acquiring ∨ u.timing.lock = .locked ∨ u.timing.lock = .rejoining) :
    u.marker w data n =
      ((u.completeLine data).1.handOn (u.completeLine data).2).openLine w n := by
  refine (if_neg hw).trans ?_
  rcases hl with hl | hl | hl <;> rw [hl] <;> rfl

/-- A completed line adds itself to the frame in progress and changes nothing else on the inbound side, whether or not
it hands a packet on. -/
theorem State.completeLine_handOn_sameInput (hi : u.link.inFrame = some fr)
    (hl : u.timing.lock = .acquiring ∨ u.timing.lock = .locked ∨ u.timing.lock = .rejoining) :
    (u.framed (fr.withLine data)).SameInput ((u.completeLine data).1.handOn (u.completeLine data).2) :=
  (u.completeLine_spec data fr hi hl).trans (State.handOn_sameLink _ _).sameInput

theorem State.openLine_of_goesOn (hi : u.link.inFrame = some fr) (h : fr.lines.length < 4200) :
    u.openLine w n = u.framed { fr with openType := LineType.ofWord w, refClks := fr.refClks + n } := by
  simp only [State.openLine, hi, Config.maxLines, if_neg (Nat.not_le.mpr h)]
  rfl

/-- The 4201st marker judges the frame as invalid and begins a headless one where a frame is followed still. -/
theorem State.openLine_of_overlong (hi : u.link.inFrame = some fr) (h : 4200 ≤ fr.lines.length) :
    u.openLine w n =
      if (u.judgeFrame none).link.inFrame.isSome then
        (u.judgeFrame none).framed
          { headless := true, lines := [], openType := LineType.ofWord w, decodable := false, refClks := 0 }
      else u.judgeFrame none := by
  simp only [State.openLine, hi, Config.maxLines, if_pos h]
  rfl

theorem InFrame.withLine_length (fr : InFrame) (data : List DataWord) :
    (fr.withLine data).lines.length = fr.lines.length + 1 :=
  List.length_append

/-- A marker inside a frame: the line completed, its packet handed on, the next line opened (R96, R128). -/
theorem exec_lineMarker_of_goesOn {s : State} (hi : s.settle.link.inFrame = some fr)
    (hl : s.settle.timing.lock = .acquiring ∨ s.settle.timing.lock = .locked ∨ s.settle.timing.lock = .rejoining)
    (hgoes : fr.goesOn w) {v : State} {f : Option Fragment} (hdone : s.settle.completeLine data = (v, f)) :
    exec (.lineMarker w data n) s = .next ((v.handOn f).framed (fr.afterLine data w n)) := by
  obtain ⟨hw, hlines⟩ := hgoes
  obtain ⟨-, hin, -⟩ := State.completeLine_handOn_sameInput data hi hl
  rw [exec_lineMarker, State.marker_of_followed data n hw hl,
    State.openLine_of_goesOn n hin (by rw [InFrame.withLine_length]; exact hlines), hdone]
  rfl

end Marker

/-! ## The frame in progress after a judgement (R97, R112) -/

theorem State.assess_lock (s : State) (shape : Option FrameShape) :
    (s.assess shape).timing.lock = s.timing.lock ∨ (s.assess shape).timing.lock = .locked := by
  by_cases h : 2 ≤ s.matchAfter shape
  · rw [State.assess_of_two h, State.offerNotice_timing]
    exact .inr rfl
  · rw [State.assess_of_lt rfl (Nat.not_le.mp h)]
    exact .inl rfl

theorem State.leaveLocked_unfollowed (s : State) (cause : LockCause) (gen : Option Generator) :
    ((s.leaveLocked cause gen).timing.lock = .noSignal ∨ (s.leaveLocked cause gen).timing.lock = .holdover) ∧
      (s.leaveLocked cause gen).link.inFrame = none := by
  by_cases h : s.status.params.holdoverLimit = 0
  · rw [State.leaveLocked_of_noHoldover h, State.enterNoSignal_timing, State.enterNoSignal_link]
    exact ⟨.inl rfl, rfl⟩
  · rw [State.leaveLocked_of_holdover h, State.offerNotice_timing, State.offerNotice_link]
    exact ⟨.inr rfl, rfl⟩

/-- A frame judged is followed by another exactly where the part is not left in NO_SIGNAL or HOLDOVER. -/
theorem State.judgeFrame_followed_iff {s : State} {fr : InFrame} (hi : s.link.inFrame = some fr)
    (hl : s.timing.lock = .acquiring ∨ s.timing.lock = .locked ∨ s.timing.lock = .rejoining)
    (shape : Option FrameShape) :
    (s.judgeFrame shape).link.inFrame.isSome = true ↔
      (s.judgeFrame shape).timing.lock ≠ .noSignal ∧ (s.judgeFrame shape).timing.lock ≠ .holdover := by
  have assessed (h : s.timing.lock = .acquiring ∨ s.timing.lock = .rejoining) :
      (s.judgeFrame shape).link.inFrame.isSome = true ∧
        (s.judgeFrame shape).timing.lock ≠ .noSignal ∧ (s.judgeFrame shape).timing.lock ≠ .holdover := by
    rw [State.judgeFrame_of_assessing h, (s.assess_inbound shape).1, hi]
    refine ⟨rfl, ?_⟩
    rcases s.assess_lock shape with hlock | hlock
    · rw [hlock]
      rcases h with h | h <;> rw [h] <;> decide
    · rw [hlock]
      decide
  rcases hl with hl | hl | hl
  · exact iff_of_true (assessed (.inl hl)).1 (assessed (.inl hl)).2
  · rw [State.judgeFrame_of_locked hl]
    have lost (v : State) (cause : LockCause) (gen : Option Generator) :
        (v.leaveLocked cause gen).link.inFrame.isSome = true ↔
          (v.leaveLocked cause gen).timing.lock ≠ .noSignal ∧ (v.leaveLocked cause gen).timing.lock ≠ .holdover := by
      obtain ⟨hlock, hin⟩ := v.leaveLocked_unfollowed cause gen
      rw [hin]
      exact iff_of_false (by decide) fun ⟨hno, hhold⟩ => hlock.elim hno hhold
    have kept {v : State} (hlock : v.timing.lock = .locked) (hin : v.link.inFrame = some fr) :
        v.link.inFrame.isSome = true ↔ v.timing.lock ≠ .noSignal ∧ v.timing.lock ≠ .holdover := by
      rw [hin, hlock]
      exact iff_of_true rfl (by decide)
    by_cases hgood : sameGeometry s.timing.recorded shape = true
    · rw [State.judgeLocked_good hgood]
      exact kept hl hi
    · rw [State.judgeLocked_fault hgood]
      split
      · exact lost _ _ _
      · exact kept hl hi
  · exact iff_of_true (assessed (.inr hl)).1 (assessed (.inr hl)).2

/-! ## Relayed lines -/

/-- Settles O43: each completed line by its type, then the marker that opens the next; the 4201st by the judgement. -/
theorem lineRelayed : Obligations.LineRelayed := by
  refine ⟨?_, ?_, ?_, fun _ _ => rfl, fun _ => rfl⟩
  · intro s w data n fr u link' hf hi hgoes
    have emits {v : State} (h : (u.framed (fr.withLine data)).relay fr data = (v, none)) :
        exec (.lineMarker w data n) s = .next (v.framed (fr.afterLine data w n)) :=
      exec_lineMarker_of_goesOn data n hi (or_assoc.mp (.inl hf)) hgoes
        ((State.completeLine_of_follows data hf hi).trans h)
    exact ⟨fun x h => emits (State.relay_unknown data _ h),
      fun h hno => emits ((State.relay_blank data _ h).trans (State.relayBlank_unmanaged data _ hno)),
      fun h hheadless => emits (State.relay_active_headless data _ h hheadless),
      fun h hheadless hlatch => emits (State.relay_active_uncomposed data _ h hheadless hlatch),
      fun h hheadless hlatch => emits (State.relay_active_composed data _ h hheadless hlatch)⟩
  · intro s w data n fr u held seen disposed hl hi hgoes
    have examined {v : State} {f : Option Fragment} (h : held.examineOnly fr data = (v, f)) :
        exec (.lineMarker w data n) s = .next ((v.handOn f).framed (fr.afterLine data w n)) :=
      exec_lineMarker_of_goesOn data n hi (.inr (.inr hl)) hgoes
        ((State.completeLine_of_rejoining data hl hi).trans h)
    refine ⟨fun hno => examined (State.examineOnly_unmanaged data held hno), fun hheadless hblank hrange => ?_⟩
    have managed {d : Disposition} (hd : disposed = d) := examined
      (State.examineOnly_managed data held hheadless hblank hrange hd)
    refine ⟨fun hd => ?_, fun f hd => ?_⟩
    · rcases hd with hd | hd <;> exact managed hd
    · rcases hd with hd | hd <;> exact managed hd
  · intro s w data n fr u v hf hi hw hlong
    have hl := or_assoc.mp hf
    obtain ⟨hlock, hin, -⟩ := State.completeLine_handOn_sameInput data hi hl
    have hfollowed := State.judgeFrame_followed_iff hin (by rw [hlock]; exact hl) none
    have hexec := exec_lineMarker w data n s
    rw [State.marker_of_followed data n hw hl,
      State.openLine_of_overlong n hin (by rw [InFrame.withLine_length]; exact hlong),
      ← State.handed_eq_handOn] at hexec
    rw [← State.handed_eq_handOn] at hfollowed
    rw [hexec]
    refine ⟨fun hlost => ?_, fun hno hhold => ?_⟩
    · rw [if_neg fun h => hlost.elim (hfollowed.mp h).1 (hfollowed.mp h).2]
    · rw [if_pos (hfollowed.mpr ⟨hno, hhold⟩)]

/-- Settles O46: the content is fixed as the line completes, by its type and, for a management line, by its
disposition and the outbound range; then its packet, then the next line. -/
theorem managementLineRelayed : Obligations.ManagementLineRelayed := by
  refine ⟨MgmtRange.holds_iff, ?_, ?_, ?_⟩
  · intro s w data n fr u done hf hi hgoes
    refine ⟨?_, fun hblank => (State.completeLine_of_follows data hf hi).trans (State.relay_blank data _ hblank)⟩
    rw [State.handed_eq_handOn]
    exact exec_lineMarker_of_goesOn data n hi (or_assoc.mp (.inl hf)) hgoes rfl
  · intro u data fr held hf hi
    rw [State.completeLine_of_follows data hf hi]
    exact ⟨State.relay_blank data held, fun x => State.relay_unknown data held,
      State.relay_active_headless data held, State.relay_active_uncomposed data held,
      State.relay_active_composed data held⟩
  · intro s fr pos data hheadless hrange bytes v same blanked
    have managed {d : Disposition} (hd : disposition s.status.address bytes = d) :=
      State.relayBlank_managed data s hheadless hrange hd
    have unchanged : v.putLine .blank data .input none = same := s.flagPacket_putLine data bytes _ _ _
    have emptied : v.putLine .blank (emptyLine data.length) .input none = blanked := s.flagPacket_putLine _ bytes _ _ _
    refine ⟨fun hd => ?_, fun f hd => ?_, fun hout => ⟨fun hd => ?_, fun f hd => ?_⟩,
      fun hout => ⟨fun hd => ?_, fun f hd => ?_⟩⟩
    · rw [managed hd, ← unchanged]
      rfl
    · rw [managed hd, ← unchanged]
      rfl
    · rw [managed hd, hout]
      rfl
    · rw [managed hd, hout]
      rfl
    · rw [managed hd, hout, ← unchanged]
      rfl
    · rw [managed hd, hout, ← emptied]
      rfl

/-! ## The FRAME_HEAD line (R97, R103, R119) -/

section FrameNumber

variable {a b : Lane}

theorem frameNumber?_of_bytes (ha : Lane.isByte a) (hb : Lane.isByte b) (rest : List DataWord) :
    frameNumber? (⟨a, b⟩ :: rest) = some (BitVec.ofNat 16 ((a.toNat - 0x100) * 256 + (b.toNat - 0x100))) := by
  simp only [frameNumber?, laneByte?_of_byte ha, laneByte?_of_byte hb]
  refine congrArg some (BitVec.eq_of_toNat_eq ?_)
  obtain ⟨halo, hahi⟩ := ha
  obtain ⟨hblo, hbhi⟩ := hb
  rw [BitVec.toNat_append, byte, byte, BitVec.toNat_ofNat, BitVec.toNat_ofNat, BitVec.toNat_ofNat,
    ← Nat.shiftLeft_add_eq_or_of_lt (Nat.mod_lt _ (by decide)), Nat.shiftLeft_eq]
  omega

theorem frameNumber?_of_noBytes {word : DataWord} (h : ¬ (Lane.isByte word.luma ∧ Lane.isByte word.chroma))
    (rest : List DataWord) : frameNumber? (word :: rest) = none := by
  by_cases hluma : Lane.isByte word.luma
  · simp only [frameNumber?, laneByte?_of_byte hluma, laneByte?_of_noByte fun hchroma => h ⟨hluma, hchroma⟩]
  · simp only [frameNumber?, laneByte?_of_noByte hluma]

/-- The number's word is the word the number was read from. -/
theorem frameWord_of_bytes (ha : Lane.isByte a) (hb : Lane.isByte b) :
    frameWord (BitVec.ofNat 16 ((a.toNat - 0x100) * 256 + (b.toNat - 0x100))) = ⟨a, b⟩ := by
  obtain ⟨halo, hahi⟩ := ha
  obtain ⟨hblo, hbhi⟩ := hb
  have hnumber : (BitVec.ofNat 16 ((a.toNat - 0x100) * 256 + (b.toNat - 0x100))).toNat =
      (a.toNat - 0x100) * 256 + (b.toNat - 0x100) := by
    rw [BitVec.toNat_ofNat]
    omega
  have hluma : BitVec.ofNat 10 (0x100 + ((a.toNat - 0x100) * 256 + (b.toNat - 0x100)) / 256) = a :=
    BitVec.eq_of_toNat_eq (by rw [BitVec.toNat_ofNat]; omega)
  have hchroma : BitVec.ofNat 10 (0x100 + ((a.toNat - 0x100) * 256 + (b.toNat - 0x100)) % 256) = b :=
    BitVec.eq_of_toNat_eq (by rw [BitVec.toNat_ofNat]; omega)
  rw [frameWord, hnumber, hluma, hchroma]

end FrameNumber

/-- Settles O44: the line is relayed as a frame head numbered by its word 0, or one above the current number. -/
theorem frameHeadRelayed : Obligations.FrameHeadRelayed := by
  refine ⟨fun _ _ _ => rfl, fun _ => rfl, rfl, fun _ rest h => frameNumber?_of_noBytes h rest, ?_⟩
  intro s w data n fr u f hf hi hgoes htype
  have hnumber : f = (frameNumber? data).getD u.nextFrame := by
    simp only [f, State.nextFrame]
    cases frameNumber? data <;> cases u.timing.frame <;> rfl
  constructor
  · have hdone : u.completeLine data = ((u.framed (fr.withLine data)).relayHead data, none) :=
      (State.completeLine_of_follows data hf hi).trans (State.relay_frameHead data _ htype)
    rw [exec_lineMarker_of_goesOn data n hi (or_assoc.mp (.inl hf)) hgoes hdone, hnumber]
    rfl
  · rintro a b rest rfl halo hahi hblo hbhi
    have hread := frameNumber?_of_bytes ⟨halo, hahi⟩ ⟨hblo, hbhi⟩ rest
    rw [hread] at hnumber
    refine ⟨hread, ?_⟩
    rw [hnumber]
    exact congrArg (· :: rest) (frameWord_of_bytes ⟨halo, hahi⟩ ⟨hblo, hbhi⟩)

end Sys2Proof.Machine

namespace Sys2Proof.Machine

/-! ## An input frame head (R97, R107, R116, R124) -/

/-- No frame is followed after a head in NO_SIGNAL and HOLDOVER, a fresh one in the other states. -/
theorem State.beginFrame_eq_headBegun (s : State) : s.beginFrame = s.headBegun := by
  unfold State.beginFrame State.headBegun
  cases s.timing.lock <;> rfl

theorem exec_inputFrameHead (data : List DataWord) (n : Nat) (headFirst : Bool) (s : State) :
    exec (.inputFrameHead data n headFirst) s = .next (s.settle.frameHeadMarker data n headFirst) := rfl

section Unfollowed

variable {s : State} (data : List DataWord) (n : Nat) (headFirst : Bool)

theorem State.frameHeadMarker_of_noSignal (h : s.timing.lock = .noSignal) :
    s.frameHeadMarker data n headFirst = State.headBegun
      ((({ s with timing := { Timing.reset with lock := .acquiring, absence := true } } : State).raise
        .lockChange).offerNotice .lockState [0, 1, 0, 0, 0, 0]) := by
  rw [← State.beginFrame_eq_headBegun]
  simp only [State.frameHeadMarker, h, State.enterAcquiring, State.enter]
  rfl

theorem State.frameHeadMarker_of_holdover (h : s.timing.lock = .holdover) :
    s.frameHeadMarker data n headFirst = State.headBegun
      ((({ s with timing := { s.timing with
            lock := .rejoining, candidate := none, matchCount := 0, absence := true } } : State).raise
        .lockChange).offerNotice .lockState ([3, 4, 0] ++ presentBe2 s.timing.frame)) := by
  rw [← State.beginFrame_eq_headBegun]
  simp only [State.frameHeadMarker, h, State.enterRejoining, State.enter]
  rfl

end Unfollowed

section Followed

variable {u : State} {fr : InFrame} {data : List DataWord} {n : Nat}

theorem State.frameHeadMarker_of_followed (headFirst : Bool)
    (hl : u.timing.lock = .acquiring ∨ u.timing.lock = .locked ∨ u.timing.lock = .rejoining) :
    u.frameHeadMarker data n headFirst =
      if u.locksAtHead data n then u.frameHeadLocking data n headFirst else u.frameHeadJudging data n headFirst := by
  unfold State.frameHeadMarker
  rcases hl with hl | hl | hl <;> rw [hl] <;> rfl

theorem State.endedShape_of_followed (hi : u.link.inFrame = some fr) :
    u.endedShape data n = (fr.withLine data).shape? u.pkt.inRange (fr.refClks + n) := by
  simp only [State.endedShape, hi, Option.bind_some]

/-- An ACQUIRING part locks at a second frame of the candidate's geometry, and at no other head (R109). -/
theorem State.locksAtHead_iff (u : State) (data : List DataWord) (n : Nat) :
    u.locksAtHead data n = true ↔ u.timing.lock = .acquiring ∧ 1 ≤ u.timing.matchCount ∧
      ∃ c sh, u.timing.candidate = some c ∧ u.endedShape data n = some sh ∧ c.geometry = sh.geometry := by
  rw [State.locksAtHead, Bool.and_eq_true, beq_iff_eq, decide_eq_true_iff, State.two_le_matchAfter_iff]

/-- The head of a locking part: judged, the last line completed, then the packet and the next frame in the order the
operand says (R109, R124). -/
theorem State.frameHeadLocking_eq {v : State} {f : Option Fragment} (headFirst : Bool)
    (h : (u.judgeFrame (u.endedShape data n)).completeLine data = (v, f)) :
    u.frameHeadLocking data n headFirst = if headFirst then v.headBegun.handOn f else (v.handOn f).headBegun := by
  simp only [State.frameHeadLocking, h, State.beginFrame_eq_headBegun]

/-- A head taken by a state that agrees with `u`, its frame completed, on the inbound side. -/
theorem State.takeHead_of_sameInput {x : State} (h : (u.framed (fr.withLine data)).SameInput x) :
    x.takeHead n =
      (x.judgeFrame ((fr.withLine data).shape? u.pkt.inRange (fr.refClks + n))).headBegun := by
  obtain ⟨-, hin, hrange⟩ := h
  have hin : x.link.inFrame = some (fr.withLine data) := hin
  have hrange : x.pkt.inRange = u.pkt.inRange := hrange
  simp only [State.takeHead, hin, hrange, State.beginFrame_eq_headBegun]
  rfl

/-- Any other head: the last line completed, then the packet and the head in the order the operand says, but the packet
first where the head leaves the part in a state that takes none. -/
theorem State.frameHeadJudging_eq {w : State} {f : Option Fragment} (headFirst : Bool)
    (h : u.completeLine data = (w, f)) :
    u.frameHeadJudging data n headFirst =
      if headFirst && (w.settle.takeHead n).takesLines then (w.settle.takeHead n).handOn f
      else (w.settle.handOn f).takeHead n := by
  simp only [State.frameHeadJudging, h]

end Followed

/-- Settles O36: by the lock state; a followed frame's head by whether it locks an ACQUIRING part. -/
theorem inputHeadEnters : Obligations.InputHeadEnters := by
  intro s data n headFirst u
  refine ⟨fun h => ?_, fun h => ?_, fun w hw h => ?_, ?_⟩
  · rw [exec_inputFrameHead, State.frameHeadMarker_of_noSignal data n headFirst h]
    rfl
  · rw [exec_inputFrameHead, State.frameHeadMarker_of_holdover data n headFirst h]
  · rw [exec_lineMarker, State.marker_of_unfollowed hw h]
  · intro fr hf hi shape locks v judged last
    have hl := or_assoc.mp hf
    have hshape : u.endedShape data n = shape := State.endedShape_of_followed hi
    have hlocks : u.locksAtHead data n = true ↔ locks := by
      rw [State.locksAtHead_iff, hshape]
    have locking (h : locks) : exec (.inputFrameHead data n headFirst) s =
        .next (if headFirst then last.1.headBegun.handOn last.2 else (last.1.handOn last.2).headBegun) := by
      rw [exec_inputFrameHead, State.frameHeadMarker_of_followed headFirst hl, if_pos (hlocks.mpr h),
        State.frameHeadLocking_eq (v := last.1) (f := last.2) headFirst (by rw [hshape])]
    have hv : (u.framed (fr.withLine data)).SameInput v :=
      (u.completeLine_spec data fr hi hl).trans (State.settle_sameLink _).sameInput
    have htake (f : Option Fragment) : (v.handOn f).takeHead n = judged (v.handOn f) :=
      State.takeHead_of_sameInput (hv.trans (v.handOn_sameLink f).sameInput)
    have judging (h : ¬ locks) {f : Option Fragment} (hpacket : (u.completeLine data).2 = f) :
        exec (.inputFrameHead data n headFirst) s =
          .next (if headFirst && (judged v).takesLines then (judged v).handOn f else judged (v.handOn f)) := by
      rw [exec_inputFrameHead, State.frameHeadMarker_of_followed headFirst hl, if_neg (mt hlocks.mp h),
        State.frameHeadJudging_eq (w := (u.completeLine data).1) (f := f) headFirst (by rw [← hpacket]),
        show ((u.completeLine data).1.settle.handOn f).takeHead n = judged (v.handOn f) from htake f,
        show (u.completeLine data).1.settle.takeHead n = judged v from htake none]
    refine ⟨fun h hfirst => ?_, fun h hfirst => ?_, fun h hnone => ?_, fun h f hsome =>
      ⟨fun hfirst => ?_, fun hfirst htakes => ?_, fun hfirst htakes => ?_⟩⟩
    · rw [locking h, hfirst, State.handed_eq_handOn]
      rfl
    · rw [locking h, hfirst, State.handed_eq_handOn]
      rfl
    · rw [judging h hnone]
      exact congrArg Host.Outcome.next (ite_self _)
    · rw [judging h hsome, hfirst]
      rfl
    · rw [judging h hsome, hfirst, htakes]
      rfl
    · rw [judging h hsome, hfirst, htakes]
      rfl

end Sys2Proof.Machine

namespace Sys2Proof.Machine

/-! ## A packet laid in a line (R98, R132) -/

theorem byteLane_toNat (b : Byte) : (byteLane b).toNat = 0x100 + b.toNat := by
  rw [byteLane, BitVec.toNat_ofNat]
  omega

theorem byteLane_isByte (b : Byte) : Lane.isByte (byteLane b) := by
  rw [Lane.isByte, byteLane_toNat]
  omega

theorem byte_of_byteLane (b : Byte) : byte ((byteLane b).toNat - 0x100) = b := by
  rw [byteLane_toNat, Nat.add_sub_cancel_left, byte, BitVec.ofNat_toNat, BitVec.setWidth_eq]

/-- Empty-line content ends a line's bytes in its luma lane already. -/
theorem emptyWord_noByte : ¬ Lane.isByte emptyWord.luma := by
  unfold Lane.isByte
  decide

theorem lineBytes_emptyLine (n : Nat) : lineBytes (emptyLine n) = [] := by
  cases n with
  | zero => rfl
  | succ n => exact lineBytes_cons_end (emptyLine n) fun h => emptyWord_noByte h.1

theorem lastOddByte_emptyLine (n : Nat) : lastOddByte (emptyLine n) = [] := by
  cases n with
  | zero => rfl
  | succ n => exact lastOddByte_cons_end (emptyLine n) (fun h => emptyWord_noByte h.1) fun h => emptyWord_noByte h.1

theorem length_packWords (packet : List Byte) : (packWords packet).length = wordsFor packet := by
  induction packet using packWords.induct with
  | case1 => rfl
  | case2 a => simp [packWords, wordsFor]
  | case3 a b rest ih =>
    simp only [packWords, wordsFor, List.length_cons] at ih ⊢
    omega

/-- A pair in front adds its two bytes to those that stand in pairs. -/
theorem pairedBytes_cons_cons (a b : Byte) (rest : List Byte) :
    2 * ((a :: b :: rest).length / 2) = 2 * (rest.length / 2) + 2 := by
  rw [List.length_cons, List.length_cons]
  omega

/-- R98's bytes of a packet's words are the packet's pairs: all of it, or all but the last byte of an odd length. -/
theorem lineBytes_packWords (packet : List Byte) (n : Nat) :
    lineBytes (packWords packet ++ emptyLine n) = packet.take (2 * (packet.length / 2)) := by
  induction packet using packWords.induct with
  | case1 => exact lineBytes_emptyLine n
  | case2 a =>
    have hnone : lineBytes (⟨byteLane a, 0x200⟩ :: emptyLine n) = [] :=
      lineBytes_cons_end _ fun h => Lane.emptyChroma_noByte h.2
    rw [packWords, List.cons_append, List.nil_append, hnone]
    simp
  | case3 a b rest ih =>
    rw [packWords, List.cons_append, lineBytes_cons_pair _ (byteLane_isByte a) (byteLane_isByte b), byte_of_byteLane,
      byte_of_byteLane, ih, pairedBytes_cons_cons, List.take_succ_cons, List.take_succ_cons]

/-- The byte beside chroma 0x200 is what is left of the packet after its pairs. -/
theorem lastOddByte_packWords (packet : List Byte) (n : Nat) :
    lastOddByte (packWords packet ++ emptyLine n) = packet.drop (2 * (packet.length / 2)) := by
  induction packet using packWords.induct with
  | case1 => exact lastOddByte_emptyLine n
  | case2 a =>
    rw [packWords, List.cons_append, lastOddByte_cons_odd _ (byteLane_isByte a) rfl, byte_of_byteLane]
    simp
  | case3 a b rest ih =>
    rw [packWords, List.cons_append, lastOddByte_cons_pair _ (byteLane_isByte a) (byteLane_isByte b), ih,
      pairedBytes_cons_cons, List.drop_succ_cons, List.drop_succ_cons]

/-- Word `k` of a packet's line: a pair of its bytes, its last odd byte, or empty-line content (R132). -/
def wordAt (packet : List Byte) (k : Nat) : DataWord :=
  match packet[2 * k]?, packet[2 * k + 1]? with
  | some a, some b => ⟨byteLane a, byteLane b⟩
  | some a, none => ⟨byteLane a, 0x200⟩
  | none, _ => emptyWord

theorem packWords_eq_wordAt (packet : List Byte) (n k : Nat) {word : DataWord}
    (h : (packWords packet ++ emptyLine n)[k]? = some word) : word = wordAt packet k := by
  induction packet using packWords.induct generalizing k with
  | case1 => exact List.eq_of_mem_replicate (List.mem_of_getElem? h)
  | case2 a =>
    cases k with
    | zero => exact (Option.some.inj h).symm
    | succ k => exact List.eq_of_mem_replicate (List.mem_of_getElem? (i := k) h)
  | case3 a b rest ih =>
    cases k with
    | zero => exact (Option.some.inj h).symm
    | succ k => exact ih k h

theorem u1_take_of_lt {n i : Nat} (p : List Byte) (h : i < n) : u1 (p.take n) i = u1 p i := by
  rw [u1, u1, List.getElem?_take_of_lt h]

theorem u2_take_of_lt {n i : Nat} (p : List Byte) (h : i + 1 < n) : u2 (p.take n) i = u2 p i := by
  rw [u2, u2, u1_take_of_lt p h, u1_take_of_lt p (Nat.lt_of_succ_lt h)]

section PacketLine

variable {packet : List Byte} {width : Nat}

theorem length_packetLine (h : wordsFor packet ≤ width) : (packetLine packet width).length = width := by
  rw [packetLine, List.length_append, length_packWords, emptyLine, List.length_replicate, Nat.add_sub_of_le h]

theorem packetLine_bytes (packet : List Byte) (width : Nat) :
    lineBytes (packetLine packet width) ++ lastOddByte (packetLine packet width) = packet := by
  rw [packetLine, lineBytes_packWords, lastOddByte_packWords, List.take_append_drop]

/-- The lanes of each word of a packet's line, by the bytes that it carries (R132). -/
theorem packetLine_lanes {k : Nat} {word : DataWord} (h : (packetLine packet width)[k]? = some word) :
    (∀ a b, packet[2 * k]? = some a → packet[2 * k + 1]? = some b →
      word.luma.toNat = 0x100 + a.toNat ∧ word.chroma.toNat = 0x100 + b.toNat) ∧
    (∀ a, packet[2 * k]? = some a → packet[2 * k + 1]? = none →
      word.luma.toNat = 0x100 + a.toNat ∧ word.chroma = 0x200) ∧
    (packet[2 * k]? = none → word = ⟨0x040, 0x200⟩) := by
  rw [packWords_eq_wordAt packet _ k h, wordAt]
  refine ⟨fun a b ha hb => ?_, fun a ha hb => ?_, fun ha => ?_⟩
  · rw [ha, hb]
    exact ⟨byteLane_toNat a, byteLane_toNat b⟩
  · rw [ha, hb]
    exact ⟨byteLane_toNat a, rfl⟩
  · rw [ha]
    rfl

/-- A whole packet laid in a line is examined as it was laid: of an odd length R98's bytes lack the last one, which
their header announces; of an even length they are the packet, and announce no more. -/
theorem packetStream_packetLine (hstart : packet.head? = some 0xC3) (hlen : packet.length = 14 + u2 packet 6) :
    packetStream (packetLine packet width) = packet := by
  have hbytes : lineBytes (packetLine packet width) = packet.take (2 * (packet.length / 2)) :=
    lineBytes_packWords packet _
  have hhead : (packet.take (2 * (packet.length / 2))).head? = some 0xC3 := by
    have hne : 2 * (packet.length / 2) ≠ 0 := by omega
    rw [List.head?_take, if_neg hne, hstart]
  have hfield : u2 (packet.take (2 * (packet.length / 2))) 6 = u2 packet 6 := u2_take_of_lt packet (by omega)
  have hcount : (packet.take (2 * (packet.length / 2))).length = 2 * (packet.length / 2) :=
    List.length_take_of_le (Nat.mul_div_le _ 2)
  rw [packetStream_eq, packetLine_bytes, hbytes, hhead, hfield, hcount]
  split
  · rfl
  · next hwhole =>
    have heven : 14 + u2 packet 6 ≠ 2 * (packet.length / 2) + 1 := fun h => hwhole ⟨rfl, h⟩
    exact List.take_of_length_le (by omega)

end PacketLine

/-! ## A packet that the part forms (R137) -/

@[simp] theorem length_be2 (n : Nat) : (be2 n).length = 2 := rfl

theorem u2_be2 (front rest : List Byte) {n : Nat} (h : n < 65536) : u2 (front ++ (be2 n ++ rest)) front.length = n := by
  have hhigh : (front ++ (be2 n ++ rest))[front.length]? = some (byte (n / 256)) := by
    rw [List.getElem?_append_right (Nat.le_refl _), Nat.sub_self]
    rfl
  have hlow : (front ++ (be2 n ++ rest))[front.length + 1]? = some (byte n) := by
    rw [List.getElem?_append_right (Nat.le_add_right _ 1), Nat.add_sub_cancel_left]
    rfl
  rw [u2, u1, u1, hhigh, hlow, Option.getD_some, Option.getD_some, byte, byte, BitVec.toNat_ofNat, BitVec.toNat_ofNat]
  omega

section Formed

variable (address : BitVec 5) (ch : Chan) (seq : SeqNo) (kind : Byte) (code : Code) (frame : Nat) (payload : List Byte)

theorem packetOf_head : (packetOf address ch seq kind code frame payload).head? = some 0xC3 := rfl

theorem packetOf_length : (packetOf address ch seq kind code frame payload).length = 14 + payload.length := by
  simp only [packetOf, packetBody, List.length_append, List.length_cons, List.length_nil, length_be2]
  omega

theorem packetOf_lengthField (h : payload.length ≤ 1024) :
    u2 (packetOf address ch seq kind code frame payload) 6 = payload.length := by
  simp only [packetOf, packetBody, List.append_assoc]
  exact u2_be2 _ _ (by omega)

end Formed

/-! ## A free line (R132) -/

section FreeLine

variable (v : State) (width : Nat) (source : LineSource) (offset : Option Nat) {e : Entry} {rest : List Entry}

theorem State.emitFree_of_noEntry (h : v.pkt.filled = []) : v.emitFree width source offset =
    { v with link := v.link.emits .blank (emptyLine width) source offset } := by
  simp only [State.emitFree, State.fixFree, h]
  rfl

variable {width}

theorem State.emitFree_of_narrow (h : v.pkt.filled = e :: rest) (hwidth : width < wordsFor e.packet) :
    v.emitFree width source offset =
      { v with link := v.link.emits .blank (emptyLine width) source offset } := by
  simp only [State.emitFree, State.fixFree, h, if_neg (Nat.not_le_of_lt hwidth)]
  rfl

theorem State.emitFree_of_unmarked (h : v.pkt.filled = e :: rest) (hwidth : wordsFor e.packet ≤ width)
    (hmark : e.marked = false) : v.emitFree width source offset = { v with
      pkt := { v.pkt with filled := rest }
      link := v.link.emits .blank (packetLine e.packet width) source offset } := by
  simp only [State.emitFree, State.fixFree, h, if_pos hwidth, hmark, Bool.false_eq_true, if_false]
  rfl

/-- A marked entry's emission is the reset's effect and then the line (R188). -/
theorem State.emitFree_of_marked (h : v.pkt.filled = e :: rest) (hwidth : wordsFor e.packet ≤ width)
    (hmark : e.marked = true) : v.emitFree width source offset =
      (({ v with pkt := { v.pkt with filled := rest } } : State).resetEffect .emission).putLine .blank
        (packetLine e.packet width) source offset := by
  simp only [State.emitFree, State.fixFree, h, if_pos hwidth, hmark, if_true]

end FreeLine

/-- RESPONSE_EMISSION is a free line of the output, from where its lines come now. -/
theorem exec_responseEmission_of_runs {s : State} (width : Nat) (h : s.settle.timing.frame.isSome = true) :
    exec (.responseEmission width) s = .next (s.settle.emitFree width s.settle.lineSource none) :=
  congrArg Host.Outcome.next (if_pos h)

/-- Settles O47: by the head of the response queue against the line's width; a packet's words and bytes by induction
on its pairs. -/
theorem responseEmitted : Obligations.ResponseEmitted := by
  refine ⟨?_, ?_, ?_, fun s width => exec_responseEmission_of_runs width, ?_⟩
  · intro v width source offset
    refine ⟨v.emitFree_of_noEntry width source offset, fun e rest hq => ⟨v.emitFree_of_narrow source offset hq,
      v.emitFree_of_unmarked source offset hq, fun hwidth hmark => ?_⟩⟩
    rw [v.emitFree_of_marked source offset hq hwidth hmark, v.emitFree_of_marked .input none hq hwidth hmark]
    rfl
  · intro packet width hwidth
    exact ⟨length_packetLine hwidth, packetLine_bytes packet width, packetStream_packetLine,
      fun k word => packetLine_lanes⟩
  · intro address ch seq kind code frame payload hlen
    exact ⟨packetOf_head .., packetOf_length .., packetOf_lengthField _ _ _ _ _ _ _ hlen⟩
  · intro s width u source hruns
    have hexec : exec (.responseEmission width) s = .next (u.emitFree width source none) :=
      exec_responseEmission_of_runs width hruns
    rw [hexec]
    refine ⟨fun hq => ?_, fun e rest hq => ⟨fun hwidth => ?_, fun hwidth hmark => ?_⟩⟩
    · rw [u.emitFree_of_noEntry width source none hq]
      rfl
    · rw [u.emitFree_of_narrow source none hq hwidth]
      rfl
    · rw [u.emitFree_of_unmarked source none hq hwidth hmark]
      exact ⟨packetLine e.packet width, rfl, length_packetLine hwidth, packetLine_bytes e.packet width,
        packetStream_packetLine, fun k word => packetLine_lanes⟩

end Sys2Proof.Machine

namespace Sys2Proof.Machine

/-! ## The laws of the channels, the access queue and the response queue (R73, R134, R140, R152)

Stated channel by channel, and tied to the Bools of Safety.lean. -/

/-- What the laws say of channel `ch` with record `r`, for which `ops` store operations are queued and which holds
`held` reservations. -/
structure ChanRec.Lawful (r : ChanRec) (ch : Chan) (ops held : Nat) : Prop where
  zero : ch = 0 → r.state = .idle ∨ r.state = .assembling
  joins : r.state = .assembling ↔ r.assembly ≠ none
  bounds : ∀ a, r.assembly = some a →
    1 ≤ a.frags.length ∧ a.frags.length ≤ 7 ∧ ∀ f ∈ a.frags, f.length = 1024
  ops_eq : ops = if r.state = .executing then 1 else 0
  held_eq : held = if r.state = .executing then 1 else 0

/-- The reservations a channel holds. -/
def PacketUnit.held (q : PacketUnit) (ch : Chan) : Nat := q.reserved.count ch

/-- The laws of every channel, and the bound of the response queue. -/
structure State.Lawful (s : State) : Prop where
  chan : ∀ ch, (s.chan ch).Lawful ch (s.store.opsOf ch) (s.pkt.held ch)
  total : s.pkt.total ≤ 16

@[simp] theorem PacketUnit.fill_total (q : PacketUnit) (packet : List Byte) (marked : Bool) :
    (q.fill packet marked).total = q.total + 1 := by
  simp only [PacketUnit.total, PacketUnit.fill, List.length_append, List.length_cons, List.length_nil]
  omega

@[simp] theorem PacketUnit.reserved_cons_total (q : PacketUnit) (ch : Chan) :
    ({ q with reserved := ch :: q.reserved } : PacketUnit).total = q.total + 1 := rfl

theorem ChanRec.assemblyLaw_iff (r : ChanRec) :
    r.assemblyLaw = true ↔ (r.state = .assembling ↔ r.assembly ≠ none) := by
  rw [ChanRec.assemblyLaw, beq_iff_eq, Bool.eq_iff_iff, Option.isSome_iff_ne_none, beq_iff_eq]
  exact Iff.comm

theorem ChanRec.fragsLaw_iff (r : ChanRec) : r.fragsLaw = true ↔
    ∀ a, r.assembly = some a → 1 ≤ a.frags.length ∧ a.frags.length ≤ 7 ∧ ∀ f ∈ a.frags, f.length = 1024 := by
  simp [ChanRec.fragsLaw, Option.all_eq_true, Config.fragmentBytes, and_assoc]

theorem mem_allChannels (ch : Chan) : ch ∈ [(0 : Chan), 1, 2, 3] := by
  revert ch
  decide

theorem State.forall_record_iff (s : State) (P : ChanRec → Prop) :
    (∀ r ∈ [s.chn.c0, s.chn.c1, s.chn.c2, s.chn.c3], P r) ↔ ∀ ch, P (s.chan ch) :=
  ⟨fun h ch => h (s.chan ch) (List.mem_map_of_mem (f := s.chan) (mem_allChannels ch)),
   fun h r hr => by
    obtain ⟨ch, _, rfl⟩ := List.mem_map.mp (show r ∈ [(0 : Chan), 1, 2, 3].map s.chan from hr)
    exact h ch⟩

theorem State.channelLaw_iff (s : State) : s.channelLaw = true ↔
    ((s.chan 0).state = .idle ∨ (s.chan 0).state = .assembling) ∧
    ∀ ch, ((s.chan ch).state = .assembling ↔ (s.chan ch).assembly ≠ none) ∧
      ∀ a, (s.chan ch).assembly = some a →
        1 ≤ a.frags.length ∧ a.frags.length ≤ 7 ∧ ∀ f ∈ a.frags, f.length = 1024 := by
  rw [State.channelLaw, Bool.and_eq_true, Bool.or_eq_true, beq_iff_eq, beq_iff_eq, List.all_eq_true,
    State.forall_record_iff]
  simp only [Bool.and_eq_true, ChanRec.assemblyLaw_iff, ChanRec.fragsLaw_iff]
  rfl

theorem State.executingLaw_iff_counts (s : State) : s.executingLaw = true ↔
    ∀ ch, s.store.opsOf ch = (if (s.chan ch).state = .executing then 1 else 0) ∧
      s.pkt.held ch = if (s.chan ch).state = .executing then 1 else 0 := by
  rw [State.executingLaw, List.all_eq_true]
  simp only [mem_allChannels, forall_const, State.executingLawAt, Bool.and_eq_true, beq_iff_eq, PacketUnit.held,
    List.count_eq_length_filter]

theorem Store.opsOf_eq (st : Store) (ch : Chan) : st.opsOf ch = (st.queue.filter fun op => match op with
    | .write _ c _ _ => c = ch
    | .verify _ c _ => c = ch).length := by
  refine congrArg List.length (List.filter_congr fun op _ => ?_)
  cases op <;> rfl

theorem State.executingLaw_iff (s : State) : s.executingLaw = true ↔
    ∀ ch, let n := if (s.chan ch).state = .executing then 1 else 0
      (s.store.queue.filter fun op => match op with
        | .write _ c _ _ => c = ch
        | .verify _ c _ => c = ch).length = n ∧
      (s.pkt.reserved.filter fun c => c = ch).length = n := by
  rw [State.executingLaw_iff_counts]
  simp only [Store.opsOf_eq, PacketUnit.held, List.count_eq_length_filter]
  rfl

theorem State.queueLaw_iff (s : State) : s.queueLaw = true ↔ s.pkt.filled.length + s.pkt.reserved.length ≤ 16 :=
  decide_eq_true_iff

theorem State.lawful_iff (s : State) :
    s.Lawful ↔ s.channelLaw = true ∧ s.executingLaw = true ∧ s.queueLaw = true := by
  rw [State.channelLaw_iff, State.executingLaw_iff_counts, State.queueLaw_iff]
  constructor
  · intro h
    exact ⟨⟨(h.chan 0).zero rfl, fun ch => ⟨(h.chan ch).joins, (h.chan ch).bounds⟩⟩,
      fun ch => ⟨(h.chan ch).ops_eq, (h.chan ch).held_eq⟩, h.total⟩
  · rintro ⟨⟨hzero, hrec⟩, hcounts, htotal⟩
    refine ⟨fun ch => ⟨?_, (hrec ch).1, (hrec ch).2, (hcounts ch).1, (hcounts ch).2⟩, htotal⟩
    rintro rfl
    exact hzero

/-! ### What keeps the laws -/

/-- An IDLE record without an assembly is lawful for a channel with no operation and no reservation. -/
theorem ChanRec.lawful_of_rest {r : ChanRec} (hstate : r.state = .idle) (hasm : r.assembly = none) (ch : Chan) :
    r.Lawful ch 0 0 where
  zero _ := .inl hstate
  joins := by simp [hstate, hasm]
  bounds := by simp [hasm]
  ops_eq := by simp [hstate]
  held_eq := by simp [hstate]

/-- An assembling record is lawful for a channel with no operation and no reservation where its assembly has its
bounds. -/
theorem ChanRec.lawful_of_assembling {r : ChanRec} {a : Assembly} (hstate : r.state = .assembling)
    (hasm : r.assembly = some a) (hpos : 1 ≤ a.frags.length) (hle : a.frags.length ≤ 7)
    (hfull : ∀ f ∈ a.frags, f.length = 1024) (ch : Chan) : r.Lawful ch 0 0 where
  zero _ := .inr hstate
  joins := by simp [hstate, hasm]
  bounds := by
    intro b hb
    obtain rfl := Option.some.inj (hasm.symm.trans hb)
    exact ⟨hpos, hle, hfull⟩
  ops_eq := by simp [hstate]
  held_eq := by simp [hstate]

namespace State.Lawful

variable {s t : State}

theorem ops_zero (hs : s.Lawful) {ch : Chan} (h : (s.chan ch).state ≠ .executing) : s.store.opsOf ch = 0 :=
  (hs.chan ch).ops_eq.trans (if_neg h)

theorem held_zero (hs : s.Lawful) {ch : Chan} (h : (s.chan ch).state ≠ .executing) : s.pkt.held ch = 0 :=
  (hs.chan ch).held_eq.trans (if_neg h)

theorem assembly_none (hs : s.Lawful) {ch : Chan} (h : (s.chan ch).state ≠ .assembling) :
    (s.chan ch).assembly = none :=
  Classical.not_not.mp (mt (hs.chan ch).joins.mpr h)

/-- The laws are about the channel records, the access queue, and the response queue. -/
theorem same (hs : s.Lawful) (hchn : t.chn = s.chn) (hqueue : t.store.queue = s.store.queue)
    (hreserved : t.pkt.reserved = s.pkt.reserved) (htotal : t.pkt.total ≤ 16) : t.Lawful where
  chan ch := by
    rw [State.chan, Store.opsOf, PacketUnit.held, hchn, hqueue, hreserved]
    exact hs.chan ch
  total := htotal

/-- An operation on one channel leaves the laws of the others as they were. -/
theorem of_channel (hs : s.Lawful) {ch : Chan} {r : ChanRec} (hchn : t.chn = s.chn.set ch r)
    (hother : ∀ d, d ≠ ch → t.store.opsOf d = s.store.opsOf d ∧ t.pkt.held d = s.pkt.held d)
    (hch : r.Lawful ch (t.store.opsOf ch) (t.pkt.held ch)) (htotal : t.pkt.total ≤ 16) : t.Lawful where
  chan d := by
    rw [State.chan, hchn]
    by_cases h : d = ch
    · subst h
      rwa [ChannelUnit.get_set_same]
    · rw [ChannelUnit.get_set_other _ _ h, (hother d h).1, (hother d h).2]
      exact hs.chan d
  total := htotal

/-- A channel that is not EXECUTING takes another such record. -/
theorem record (hs : s.Lawful) {ch : Chan} {r : ChanRec} (h : (s.chan ch).state ≠ .executing)
    (hr : r.Lawful ch 0 0) (hchn : t.chn = s.chn.set ch r) (hqueue : t.store.queue = s.store.queue)
    (hreserved : t.pkt.reserved = s.pkt.reserved) (htotal : t.pkt.total ≤ 16) : t.Lawful := by
  have hops (d : Chan) : t.store.opsOf d = s.store.opsOf d := by rw [Store.opsOf, hqueue]; rfl
  have hheld (d : Chan) : t.pkt.held d = s.pkt.held d := by rw [PacketUnit.held, hreserved]; rfl
  refine hs.of_channel hchn (fun d _ => ⟨hops d, hheld d⟩) ?_ htotal
  rwa [hops, hheld, hs.ops_zero h, hs.held_zero h]

theorem setChan (hs : s.Lawful) {ch : Chan} {r : ChanRec} (h : (s.chan ch).state ≠ .executing)
    (hr : r.Lawful ch 0 0) : (s.setChan ch r).Lawful :=
  hs.record h hr rfl rfl rfl hs.total

theorem dropAssembly (hs : s.Lawful) {ch : Chan} (h : (s.chan ch).state ≠ .executing) : (s.dropAssembly ch).Lawful :=
  hs.setChan h (ChanRec.lawful_of_rest rfl rfl ch)

theorem fill (hs : s.Lawful) (hroom : s.pkt.room = true) (packet : List Byte) (marked : Bool) :
    ({ s with pkt := s.pkt.fill packet marked } : State).Lawful :=
  hs.same rfl rfl rfl (by
    rw [PacketUnit.fill_total]
    exact of_decide_eq_true hroom)

theorem offer (hs : s.Lawful) (packet : List Byte) : (s.offer packet).Lawful := by
  rcases s.offer_cases packet with ⟨hroom, h⟩ | ⟨_, h⟩ <;> rw [h]
  · exact hs.fill hroom packet false
  · exact hs

theorem refuseFragment (hs : s.Lawful) (f : Fragment) (code : Code) (payload : List Byte) :
    (s.refuseFragment f code payload).Lawful :=
  hs.offer _

theorem raise (hs : s.Lawful) (flag : EventFlag) : (s.raise flag).Lawful := hs.same rfl rfl rfl hs.total

theorem offerNotice (hs : s.Lawful) (k : NoticeKind) (data : List Byte) : (s.offerNotice k data).Lawful := by
  rcases s.offerNotice_cases k data with ⟨_, hroom, h⟩ | ⟨_, _, h⟩ | ⟨_, h⟩ <;> rw [h]
  · exact hs.fill hroom _ false
  · exact hs.raise _
  · exact hs

end State.Lawful

/-! ### The owners: an answer at once leaves the access queue alone, a queued operation is the channel's own -/

/-- The owner's reply is an answer, and the access queue is as it was. -/
def State.AtOnce (s : State) (o : State × Reply) : Prop := o.2 ≠ .queued ∧ o.1.store.queue = s.store.queue

theorem State.AtOnce.answer {s t : State} {code : Code} {payload : List Byte}
    (h : t.store.queue = s.store.queue) : s.AtOnce (t, .answer code payload) := ⟨nofun, h⟩

theorem State.stage_atOnce (s : State) (e : Edit) : s.AtOnce (s.stage e) := by
  unfold State.stage
  split <;> exact .answer rfl

theorem Store.segmentRefusal_ne_queued {st : Store} {segment : Option Nat} {r : Reply}
    (h : st.segmentRefusal segment = some r) : r ≠ .queued := by
  unfold Store.segmentRefusal at h
  repeat' split at h
  all_goals cases h
  all_goals nofun

theorem Store.claimStaged_queue (st : Store) (segment : Option Nat) : (st.claimStaged segment).queue = st.queue := by
  cases segment <;> rfl

theorem Store.releaseStaged_queue (st : Store) (edits : List Edit) : (st.releaseStaged edits).queue = st.queue := by
  rw [Store.releaseStaged_eq_released]
  rfl

theorem State.takeWinStage_atOnce (s : State) (p : List Byte) : s.AtOnce (s.takeWinStage p) := by
  unfold State.takeWinStage
  split
  · exact .answer rfl
  · simp only []
    split
    · next h => exact ⟨Store.segmentRefusal_ne_queued h, rfl⟩
    · have staged := s.stage_atOnce (.winStage (u1 p 0) (windowOf p))
      split
      · next h =>
        rw [h] at staged
        exact .answer ((Store.claimStaged_queue _ _).trans staged.2)
      · exact staged

theorem State.targetRefusal_ne_queued {s : State} {t : Target} {r : Reply} (h : s.targetRefusal t = some r) :
    r ≠ .queued := by
  unfold State.targetRefusal at h
  repeat' split at h
  all_goals cases h
  all_goals nofun

theorem projectionRefusal_ne_queued {st : Store} {wins : List WindowRec} {r : Reply}
    (h : projectionRefusal st wins = some r) : r ≠ .queued := by
  unfold projectionRefusal at h
  repeat' split at h
  all_goals cases h
  all_goals nofun

theorem State.takeSetCommit_atOnce (s : State) (p : List Byte) : s.AtOnce (s.takeSetCommit p) := by
  unfold State.takeSetCommit
  split
  · exact .answer rfl
  · split
    · exact .answer rfl
    · split
      · exact .answer rfl
      · split
        · next h => exact ⟨State.targetRefusal_ne_queued h, rfl⟩
        · split
          · next h => exact ⟨projectionRefusal_ne_queued h, rfl⟩
          · exact .answer rfl

theorem State.takeSegCreate_atOnce (s : State) (p : List Byte) : s.AtOnce (s.takeSegCreate p) := by
  unfold State.takeSegCreate
  simp only []
  repeat' split
  all_goals exact .answer rfl

theorem State.takeSegDelete_atOnce (s : State) (p : List Byte) : s.AtOnce (s.takeSegDelete p) := by
  unfold State.takeSegDelete
  repeat' split
  all_goals exact .answer rfl


theorem State.takeQueryWindow_atOnce (s : State) (p : List Byte) : s.AtOnce (s.takeQueryWindow p) := by
  unfold State.takeQueryWindow
  repeat' split
  all_goals exact .answer rfl

theorem State.takePartReset_atOnce (s : State) (p : List Byte) : s.AtOnce (s.takePartReset p) := by
  unfold State.takePartReset
  split
  · exact .answer rfl
  · exact ⟨nofun, rfl⟩

/-- Only SEG_WRITE and SEG_CLOSE queue an operation. -/
theorem State.dispatch_atOnce (s : State) {k : Kind} (hwrite : k ≠ .segWrite) (hclose : k ≠ .segClose) (ch : Chan)
    (p : List Byte) : s.AtOnce (s.dispatch k ch p) := by
  cases k with
  | segWrite => exact absurd rfl hwrite
  | segClose => exact absurd rfl hclose
  | winStage => exact s.takeWinStage_atOnce p
  | winPlace =>
    show s.AtOnce (s.takeWinPlace p)
    unfold State.takeWinPlace; split
    · exact .answer rfl
    · exact s.stage_atOnce _
  | winShow =>
    show s.AtOnce (s.takeWinShow p)
    unfold State.takeWinShow; split
    · exact .answer rfl
    · exact s.stage_atOnce _
  | palStage =>
    show s.AtOnce (s.takePalStage p)
    unfold State.takePalStage; split
    · exact .answer rfl
    · exact s.stage_atOnce _
  | fillStage =>
    show s.AtOnce (s.takeFillStage p)
    unfold State.takeFillStage; split
    · exact .answer rfl
    · exact s.stage_atOnce _
  | setCommit => exact s.takeSetCommit_atOnce p
  | setDiscard =>
    show s.AtOnce (s.takeSetDiscard p)
    unfold State.takeSetDiscard; split
    · exact .answer rfl
    · exact .answer (Store.releaseStaged_queue _ _)
  | setWithdraw =>
    show s.AtOnce (s.takeSetWithdraw p)
    unfold State.takeSetWithdraw; split
    · exact .answer (Store.releaseStaged_queue _ _)
    · exact .answer rfl
  | segCreate => exact s.takeSegCreate_atOnce p
  | segDelete => exact s.takeSegDelete_atOnce p
  | queryStatus =>
    refine ⟨?_, congrArg Store.queue (s.takeQueryStatus_store p)⟩
    show (s.takeQueryStatus p).2 ≠ .queued
    unfold State.takeQueryStatus; split <;> nofun
  | queryWindow => exact s.takeQueryWindow_atOnce p
  | queryPalette => show s.AtOnce (s.takeQueryPalette p); unfold State.takeQueryPalette; split <;> exact .answer rfl
  | querySegment => show s.AtOnce (s.takeQuerySegment p); unfold State.takeQuerySegment; split <;> exact .answer rfl
  | queryDirectory => exact .answer rfl
  | paramSet => show s.AtOnce (s.takeParamSet p); unfold State.takeParamSet; split <;> exact .answer rfl
  | paramQuery => show s.AtOnce (s.takeParamQuery p); unfold State.takeParamQuery; split <;> exact .answer rfl
  | partReset => exact s.takePartReset_atOnce p
  | resync => exact .answer rfl

/-- The owner's reply is that an operation of channel `ch` has joined the tail of the access queue. -/
def State.Queues (s : State) (ch : Chan) (o : State × Reply) : Prop :=
  o.2 = .queued ∧ ∃ op : StoreOp, op.chan = ch ∧ o.1.store.queue = s.store.queue ++ [op]

theorem State.takeSegWrite_cases (s : State) (ch : Chan) (p : List Byte) :
    s.AtOnce (s.takeSegWrite ch p) ∨ s.Queues ch (s.takeSegWrite ch p) := by
  unfold State.takeSegWrite
  simp only []
  split
  · exact .inl (.answer rfl)
  · split
    · exact .inl (.answer rfl)
    · exact .inl (.answer rfl)
    · exact .inl (.answer rfl)
    · split
      · exact .inl (.answer rfl)
      · exact .inr ⟨rfl, .write _ ch _ _, rfl, rfl⟩

theorem State.takeSegClose_cases (s : State) (ch : Chan) (p : List Byte) :
    s.AtOnce (s.takeSegClose ch p) ∨ s.Queues ch (s.takeSegClose ch p) := by
  unfold State.takeSegClose
  simp only []
  split
  · exact .inl (.answer rfl)
  · split
    · exact .inl (.answer rfl)
    · exact .inl (.answer rfl)
    · exact .inl (.answer rfl)
    · exact .inr ⟨rfl, .verify _ ch _, rfl, rfl⟩

/-- A message on a channel of its kind is answered at once, or queues an operation of that channel, a bulk one. -/
theorem State.dispatch_cases (s : State) {k : Kind} {ch : Chan} (hch : k.onChannel ch = true) (p : List Byte) :
    s.AtOnce (s.dispatch k ch p) ∨ ch ≠ 0 ∧ s.Queues ch (s.dispatch k ch p) := by
  by_cases hwrite : k = .segWrite
  · subst hwrite
    exact (s.takeSegWrite_cases ch p).imp_right fun h => ⟨(Kind.onChannel_iff .segWrite ch).mp hch, h⟩
  · by_cases hclose : k = .segClose
    · subst hclose
      exact (s.takeSegClose_cases ch p).imp_right fun h => ⟨(Kind.onChannel_iff .segClose ch).mp hch, h⟩
    · exact .inl (s.dispatch_atOnce hwrite hclose ch p)

/-! ### A complete message -/

theorem State.genericRefusal_kind {s : State} {kind : Byte} {ch : Chan} {p : List Byte}
    (h : s.genericRefusal kind ch p = none) : ∃ k, Kind.ofCode? kind = some k ∧ k.onChannel ch = true := by
  unfold State.genericRefusal at h
  split at h
  · cases h
  · next k hk =>
    split at h
    · cases h
    · next hch => exact ⟨k, hk, by simpa using hch⟩

/-- A complete message leaves its channel IDLE without an assembly, the reservation unmade or filled. -/
def State.Rested (s t : State) (ch : Chan) : Prop :=
  (∃ r : ChanRec, r.state = .idle ∧ r.assembly = none ∧ t.chn = s.chn.set ch r) ∧
    t.store.queue = s.store.queue ∧ t.pkt.reserved = s.pkt.reserved ∧ t.pkt.total ≤ s.pkt.total + 1

/-- A complete message leaves its channel, a bulk one, EXECUTING, with a reservation and an operation queued. -/
def State.Executes (s t : State) (ch : Chan) : Prop :=
  ch ≠ 0 ∧ (∃ r : ChanRec, r.state = .executing ∧ r.assembly = none ∧ t.chn = s.chn.set ch r) ∧
    (∃ op : StoreOp, op.chan = ch ∧ t.store.queue = s.store.queue ++ [op]) ∧
    t.pkt.reserved = ch :: s.pkt.reserved ∧ t.pkt.total = s.pkt.total + 1

theorem State.accepting_chn (s : State) (ch : Chan) (seq : SeqNo) : (s.accepting ch seq).chn =
    s.chn.set ch { s.chan ch with state := .idle, last := seq, assembly := none } := by
  simp [State.accepting, State.chan]

/-- An answer from an owner that was found at `accepting` and left the access queue alone. -/
theorem State.answerWith_rested {s v : State} {ch : Chan} {seq : SeqNo} (hchn : v.chn = (s.accepting ch seq).chn)
    (hpkt : v.pkt = (s.accepting ch seq).pkt) (hqueue : v.store.queue = s.store.queue) (kind : Byte) (code : Code)
    (payload : List Byte) (marked : Bool) : s.Rested (v.answerWith ch seq kind code payload marked) ch := by
  refine ⟨⟨{ v.chan ch with cache := some (v.packet ch seq kind code payload) }, ?_, ?_, ?_⟩, hqueue, ?_, ?_⟩
  · simp [State.chan, hchn, State.accepting_chn]
  · simp [State.chan, hchn, State.accepting_chn]
  · simp [State.chan, hchn, State.accepting_chn]
  · simp [hpkt, State.accepting]
  · simp [hpkt, State.accepting]

theorem State.dispatch_chn (s : State) (k : Kind) (ch : Chan) (p : List Byte) : (s.dispatch k ch p).1.chn = s.chn := by
  cases k <;> simp [State.dispatch]

/-- An accepted message (R151, R152). -/
theorem State.carryOut_dispatch_cases (s : State) {k : Kind} {ch : Chan} (hch : k.onChannel ch = true) (seq : SeqNo)
    (kind : Byte) (p : List Byte) (o : State × Reply) (ho : (s.accepting ch seq).dispatch k ch p = o) :
    s.Rested (o.1.carryOut ch seq kind o.2) ch ∨ s.Executes (o.1.carryOut ch seq kind o.2) ch := by
  obtain ⟨v, reply⟩ := o
  have hchn : v.chn = (s.accepting ch seq).chn := by
    rw [← (s.accepting ch seq).dispatch_chn k ch p, ho]
  have hpkt : v.pkt = (s.accepting ch seq).pkt := by
    rw [← (s.accepting ch seq).dispatch_pkt k ch p, ho]
  have hcases := (s.accepting ch seq).dispatch_cases hch p
  rw [ho] at hcases
  rcases hcases with ⟨hreply, hqueue⟩ | ⟨hbulk, hreply, op, hop, hqueue⟩
  · cases reply with
    | queued => exact absurd rfl hreply
    | answer code payload => exact .inl (State.answerWith_rested hchn hpkt hqueue kind code payload false)
    | marked payload => exact .inl (State.answerWith_rested hchn hpkt hqueue kind .ok payload true)
  · cases hreply
    refine .inr ⟨hbulk, ⟨{ v.chan ch with state := .executing }, rfl, ?_, ?_⟩, ⟨op, hop, hqueue⟩, ?_, ?_⟩
    · simp [State.chan, hchn, State.accepting_chn]
    · simp [State.carryOut, State.chan, hchn, State.accepting_chn]
    · simp [State.carryOut, hpkt, State.accepting]
    · simp [State.carryOut, hpkt, State.accepting]

/-- A complete message that holds its reservation (R150, R151). -/
theorem State.judge_cases (s : State) (ch : Chan) (seq : SeqNo) (kind : Byte) (p : List Byte) :
    s.Rested (((s.dropAssembly ch).reserve ch).judge ch seq kind p) ch ∨
      s.Executes (((s.dropAssembly ch).reserve ch).judge ch seq kind p) ch := by
  unfold State.judge
  split
  · next code data _ =>
    split
    · rw [State.reserve_fillReserved]
      exact .inl ⟨⟨_, rfl, rfl, rfl⟩, rfl, rfl, Nat.le_of_eq (s.pkt.fill_total _ _)⟩
    · exact .inl (State.answerWith_rested (v := s.accepting ch seq) rfl rfl rfl kind code data false)
  · next hok =>
    obtain ⟨k, hk, hch⟩ := State.genericRefusal_kind hok
    simp only [hk]
    exact s.carryOut_dispatch_cases hch seq kind p _ rfl

/-- What a complete message leaves: its channel at rest or EXECUTING, the latter only with room for a reservation. -/
theorem State.complete_cases (s : State) (ch : Chan) (seq : SeqNo) (kind : Byte) (p : List Byte) :
    (s.complete ch seq kind p = (s.dropAssembly ch).raise .responseDropped) ∨
      s.pkt.room = true ∧ (s.Rested (s.complete ch seq kind p) ch ∨ s.Executes (s.complete ch seq kind p) ch) := by
  unfold State.complete
  simp only [State.dropAssembly_pkt]
  by_cases hroom : s.pkt.room = true
  · simp only [hroom, if_true]
    exact .inr ⟨trivial, s.judge_cases ch seq kind p⟩
  · exact .inl (if_neg hroom)

theorem Store.opsOf_append {st st' : Store} {op : StoreOp} (h : st'.queue = st.queue ++ [op]) (ch : Chan) :
    st'.opsOf ch = st.opsOf ch + if op.chan = ch then 1 else 0 := by
  simp only [Store.opsOf, h, List.filter_append, List.length_append]
  by_cases hop : op.chan = ch <;> simp [hop]

theorem PacketUnit.held_cons {q q' : PacketUnit} {c : Chan} (h : q'.reserved = c :: q.reserved) (ch : Chan) :
    q'.held ch = q.held ch + if c = ch then 1 else 0 := by
  simp only [PacketUnit.held, h, List.count_cons, beq_iff_eq]

/-! ### Fragments -/

/-- A RESYNC that is refused by the generic checks: answered, with the record as it was (R155). -/
theorem State.judgeResync_refused (s : State) {f : Fragment} {code : Code} {data : List Byte}
    (h : s.genericRefusal f.kind f.ch f.payload = some (code, data)) :
    (s.reserve f.ch).judgeResync f = s.queued (s.packet f.ch f.seq f.kind code data) := by
  have hrefusal : (s.reserve f.ch).genericRefusal f.kind f.ch f.payload = some (code, data) := h
  simp only [State.judgeResync, hrefusal, State.reserve_fillReserved]
  rfl

/-- A RESYNC that passes them: answered with the state and the number of fragments that it found (R155). -/
theorem State.judgeResync_taken (s : State) {f : Fragment} (h : s.genericRefusal f.kind f.ch f.payload = none) :
    (s.reserve f.ch).judgeResync f =
      s.answered f.ch f.seq f.kind .ok [byte (s.chan f.ch).state.code, byte (s.chan f.ch).fragsHeld] := by
  have htaken : (s.reserve f.ch).genericRefusal f.kind f.ch f.payload = none := h
  have haccepting : (s.reserve f.ch).setChan f.ch
      { s.chan f.ch with state := .idle, last := f.seq, assembly := none } = s.accepting f.ch f.seq := by
    simp [State.accepting, State.setChan, State.reserve, State.advance, State.dropAssembly, State.chan]
  simp only [State.judgeResync, htaken]
  exact (congrArg (State.answerWith · f.ch f.seq f.kind .ok _ false) haccepting).trans
    (s.accepting_answerWith f.ch f.seq f.kind .ok _)

section Fragments

variable {s t : State}

theorem State.Lawful.rested {ch : Chan} (hs : s.Lawful) (h : (s.chan ch).state ≠ .executing)
    (hroom : s.pkt.room = true) (ht : s.Rested t ch) : t.Lawful := by
  obtain ⟨⟨r, hstate, hasm, hchn⟩, hqueue, hreserved, htotal⟩ := ht
  have hroom : s.pkt.total < 16 := of_decide_eq_true hroom
  exact hs.record h (ChanRec.lawful_of_rest hstate hasm ch) hchn hqueue hreserved (by omega)

/-- A bulk channel at rest goes into EXECUTING with its operation and its reservation. -/
theorem State.Lawful.executes {ch : Chan} (hs : s.Lawful) (h : (s.chan ch).state ≠ .executing)
    (hroom : s.pkt.room = true) (ht : s.Executes t ch) : t.Lawful := by
  obtain ⟨hbulk, ⟨r, hstate, hasm, hchn⟩, ⟨op, hop, hqueue⟩, hreserved, htotal⟩ := ht
  have hroom : s.pkt.total < 16 := of_decide_eq_true hroom
  have hops := Store.opsOf_append hqueue
  have hheld := PacketUnit.held_cons hreserved
  rw [hop] at hops
  refine hs.of_channel hchn (fun d hd => ?_) ?_ (by omega)
  · rw [hops, hheld, if_neg (Ne.symm hd)]
    exact ⟨rfl, rfl⟩
  · rw [hops, hheld, if_pos rfl, hs.ops_zero h, hs.held_zero h]
    exact { zero := fun h0 => absurd h0 hbulk, joins := by simp [hstate, hasm], bounds := by simp [hasm],
            ops_eq := by simp [hstate], held_eq := by simp [hstate] }

theorem State.Lawful.complete {ch : Chan} (hs : s.Lawful) (h : (s.chan ch).state ≠ .executing) (seq : SeqNo)
    (kind : Byte) (p : List Byte) : (s.complete ch seq kind p).Lawful := by
  rcases s.complete_cases ch seq kind p with hdropped | ⟨hroom, hrests | hexecutes⟩
  · rw [hdropped]
    exact (hs.dropAssembly h).raise _
  · exact hs.rested h hroom hrests
  · exact hs.executes h hroom hexecutes

variable {f : Fragment}

theorem State.Lawful.refuseSize (hs : s.Lawful) (h : (s.chan f.ch).state ≠ .executing) : (s.refuseSize f).Lawful :=
  (hs.dropAssembly h).refuseFragment _ _ _

theorem State.Lawful.duplicate (hs : s.Lawful) : (s.duplicate f).Lawful := by
  unfold State.duplicate
  split
  · exact hs.offer _
  · exact hs

theorem State.Lawful.outOfSequence (hs : s.Lawful) (h : (s.chan f.ch).state = .idle) : (s.outOfSequence f).Lawful := by
  unfold State.outOfSequence
  simp only []
  split
  · split
    · exact hs.refuseFragment _ _ _
    · exact hs
  · next hbulk =>
    have hasm : (s.chan f.ch).assembly = none := hs.assembly_none (by simp [h])
    have hhalted : ({ s.chan f.ch with state := .halted } : ChanRec).Lawful f.ch 0 0 :=
      { zero := fun h0 => absurd h0 hbulk, joins := by simp [hasm], bounds := by simp [hasm], ops_eq := rfl,
        held_eq := rfl }
    exact (hs.setChan (by simp [h]) hhalted).refuseFragment _ _ _

/-- A fragment that passes the size check and is not LAST is full and not the eighth. -/
theorem Fragment.full_of_badSize_false (hsize : f.badSize ≠ true) (hlast : f.last ≠ true) :
    f.payload.length = 1024 ∧ f.index ≠ 7 := by
  simpa [Fragment.badSize, hlast, Config.fragmentBytes] using hsize

theorem State.Lawful.idleFragment (hs : s.Lawful) (h : (s.chan f.ch).state = .idle) : (s.idleFragment f).Lawful := by
  have hne : (s.chan f.ch).state ≠ .executing := by simp [h]
  unfold State.idleFragment
  simp only []
  split
  · exact hs.duplicate
  · split
    · split
      · split
        · exact hs.complete hne _ _ _
        · next hlast =>
          split
          · exact hs.refuseSize hne
          · next hsize =>
            obtain ⟨hlen, _⟩ := Fragment.full_of_badSize_false hsize hlast
            have hone : ∀ g ∈ [f.payload], g.length = 1024 := by simp [hlen]
            exact hs.setChan hne (ChanRec.lawful_of_assembling rfl rfl (by simp) (by simp) hone f.ch)
      · exact hs
    · exact hs.outOfSequence h

theorem State.Lawful.assemblingFragment {a : Assembly} (hs : s.Lawful) (h : (s.chan f.ch).state = .assembling)
    (ha : (s.chan f.ch).assembly = some a) : (s.assemblingFragment f a).Lawful := by
  have hne : (s.chan f.ch).state ≠ .executing := by simp [h]
  unfold State.assemblingFragment
  split
  · split
    · next hindex =>
      split
      · exact hs.refuseSize hne
      · next hsize =>
        split
        · exact hs.complete hne _ _ _
        · next hlast =>
          obtain ⟨hlen, hseven⟩ := Fragment.full_of_badSize_false hsize hlast
          obtain ⟨_, hle, hfull⟩ := (hs.chan f.ch).bounds a ha
          have hjoined : ∀ g ∈ a.frags ++ [f.payload], g.length = 1024 := by
            simpa [or_imp, forall_and, hlen] using hfull
          have hcount : (a.frags ++ [f.payload]).length = a.frags.length + 1 := List.length_append
          exact hs.setChan hne (ChanRec.lawful_of_assembling
            (r := { s.chan f.ch with assembly := some { a with frags := a.frags ++ [f.payload] } })
            h rfl (show 1 ≤ (a.frags ++ [f.payload]).length by omega)
            (show (a.frags ++ [f.payload]).length ≤ 7 by omega) hjoined f.ch)
    · split
      · exact hs
      · exact (hs.dropAssembly hne).refuseFragment _ _ _
  · exact (hs.dropAssembly hne).idleFragment (by simp [State.dropAssembly])

theorem State.Lawful.executingFragment (hs : s.Lawful) : (s.executingFragment f).Lawful := by
  unfold State.executingFragment
  simp only []
  split
  · exact hs
  · split
    · exact hs.refuseFragment _ _ _
    · exact hs

theorem State.Lawful.haltedFragment (hs : s.Lawful) : (s.haltedFragment f).Lawful := by
  unfold State.haltedFragment
  split
  · exact hs.refuseFragment _ _ _
  · exact hs

/-- A RESYNC that is taken or refused with its reservation made and filled (R155). -/
theorem State.Lawful.judgeResync (hs : s.Lawful) (h : (s.chan f.ch).state ≠ .executing) (hroom : s.pkt.room = true) :
    ((s.reserve f.ch).judgeResync f).Lawful := by
  cases hrefusal : s.genericRefusal f.kind f.ch f.payload with
  | some refusal =>
    rw [s.judgeResync_refused hrefusal]
    exact hs.fill hroom _ _
  | none =>
    rw [s.judgeResync_taken hrefusal]
    exact hs.rested h hroom ⟨⟨.answered _ _, rfl, rfl, rfl⟩, rfl, rfl, Nat.le_of_eq (s.pkt.fill_total _ false)⟩

theorem State.Lawful.resyncFragment (hs : s.Lawful) : (s.resyncFragment f).Lawful := by
  unfold State.resyncFragment
  split
  · exact hs
  · split
    · exact hs.refuseFragment _ _ _
    · next hne =>
      split
      · next hroom => exact hs.judgeResync hne hroom
      · exact hs.raise _

/-- A fragment handed to the Channel Unit, by the state of its channel. -/
theorem State.Lawful.fragment (hs : s.Lawful) (f : Fragment) : (s.fragment f).Lawful := by
  unfold State.fragment
  split
  · exact hs.resyncFragment
  · split
    · next hstate hasm => exact hs.assemblingFragment hstate hasm
    · exact hs.executingFragment
    · exact hs.haltedFragment
    · next hexec hhalt hasm =>
      refine hs.idleFragment ?_
      cases hstate : (s.chan f.ch).state with
      | idle => rfl
      | executing => exact absurd hstate hexec
      | halted => exact absurd hstate hhalt
      | assembling =>
        obtain ⟨a, ha⟩ := Option.ne_none_iff_exists'.mp ((hs.chan f.ch).joins.mp hstate)
        exact (hasm a hstate ha).elim

end Fragments

/-! ### Open heads, store completions, resets, emissions -/

section Blocks

variable {s : State}

theorem State.Lawful.timeOut (hs : s.Lawful) (ch : Chan) : (s.timeOut ch).Lawful := by
  unfold State.timeOut
  split
  · next a ha =>
    split
    · have hstate : (s.chan ch).state = .assembling := (hs.chan ch).joins.mpr (by simp [ha])
      exact ((hs.dropAssembly (by simp [hstate])).raise _).offerNotice _ _
    · exact hs
  · exact hs

/-- An output frame head counts towards every assembly. -/
theorem State.Lawful.atOutputHead (hs : s.Lawful) (f : FrameNo) : (s.atOutputHead f).Lawful where
  chan ch := by
    have hrecord : (s.atOutputHead f).chan ch = (s.chan ch).countHead := ChannelUnit.get_map s.chn _ ch
    rw [hrecord]
    refine { hs.chan ch with joins := ?_, bounds := ?_ }
    · simpa [ChanRec.countHead] using (hs.chan ch).joins
    · intro _ hcounted
      obtain ⟨a, ha, rfl⟩ := Option.map_eq_some_iff.mp hcounted
      exact (hs.chan ch).bounds a ha
  total := hs.total

theorem Store.opsOf_cons {st st' : Store} {op : StoreOp} (h : st.queue = op :: st'.queue) (ch : Chan) :
    st.opsOf ch = st'.opsOf ch + if op.chan = ch then 1 else 0 := by
  simp only [Store.opsOf, h, List.filter_cons, beq_iff_eq]
  split <;> simp

/-- The channel of the operation at the head of the access queue is EXECUTING (R152). -/
theorem State.Lawful.executing_of_head {op : StoreOp} {rest : List StoreOp} (hs : s.Lawful)
    (hop : s.store.queue = op :: rest) : (s.chan op.chan).state = .executing := by
  refine Decidable.byContradiction fun h => ?_
  have hzero := hs.ops_zero h
  rw [Store.opsOf_cons (st' := { s.store with queue := rest }) hop, if_pos rfl] at hzero
  exact Nat.succ_ne_zero _ hzero

/-- The operation at the head of the access queue leaves it, its channel's reservation is filled, and the channel is
IDLE (R75, R152). -/
theorem State.Lawful.finishBulk {v : State} {op : StoreOp} (hs : s.Lawful)
    (hop : s.store.queue = op :: v.store.queue) (hchn : v.chn = s.chn) (hpkt : v.pkt = s.pkt) (kind : Byte)
    (code : Code) (payload : List Byte) : (v.finishBulk op.chan kind code payload).Lawful := by
  have hexecuting := hs.executing_of_head hop
  have hops := Store.opsOf_cons hop
  obtain ⟨_, _, _, hone, hheld⟩ := hs.chan op.chan
  rw [if_pos hexecuting] at hone hheld
  rw [hops, if_pos rfl] at hone
  have hmem : op.chan ∈ s.pkt.reserved := List.count_pos_iff.mp (by rw [← PacketUnit.held]; omega)
  have hreserved : (v.finishBulk op.chan kind code payload).pkt.reserved = s.pkt.reserved.erase op.chan := by
    simp [hpkt]
  have hrecord : (v.finishBulk op.chan kind code payload).chn = s.chn.set op.chan { s.chan op.chan with
      state := .idle, cache := some (v.packet op.chan (v.chan op.chan).last kind code payload) } := by
    simp [State.finishBulk, State.chan, hchn]
  refine hs.of_channel hrecord (fun d hd => ⟨?_, ?_⟩) ?_ ?_
  · rw [hops, if_neg (Ne.symm hd)]
    rfl
  · rw [PacketUnit.held, hreserved]
    exact List.count_erase_of_ne hd
  · have hleft : (v.finishBulk op.chan kind code payload).pkt.held op.chan = 0 := by
      rw [PacketUnit.held, hreserved, List.count_erase_self, ← PacketUnit.held, hheld]
    rw [State.finishBulk_store, Nat.succ.inj hone, hleft]
    exact ChanRec.lawful_of_rest (r := { s.chan op.chan with state := .idle, cache := some _ }) rfl
      (hs.assembly_none (by simp [hexecuting])) op.chan
  · have htotal := hs.total
    have hpos := List.length_pos_of_mem hmem
    simp only [State.finishBulk_pkt, PacketUnit.fill_total]
    simp only [PacketUnit.total, hpkt, List.length_erase_of_mem hmem] at htotal ⊢
    omega

theorem Store.land_queue (st : Store) (id offset : Nat) (data : List Byte) :
    (st.land id offset data).queue = st.queue := by
  unfold Store.land
  split <;> rfl

theorem State.Lawful.writeCompletion (hs : s.Lawful) : s.writeCompletion.Lawful := by
  unfold State.writeCompletion
  split
  · next id ch offset data rest hop =>
    have hrest : ((s.store.land id offset data).dequeue id).queue = rest := by
      rw [Store.dequeue_queue, Store.land_queue, hop, List.tail_cons]
    exact hs.finishBulk (v := { s with store := (s.store.land id offset data).dequeue id })
      (op := .write id ch offset data) (by rw [hrest, hop]) rfl rfl _ _ _
  · exact hs

theorem State.Lawful.verifyCompletion (hs : s.Lawful) : s.verifyCompletion.Lawful := by
  unfold State.verifyCompletion
  split
  · next id ch carried rest hop =>
    have finished (st : Store) (hst : st.queue = s.store.queue.tail) (code : Code) (payload : List Byte) :
        (({ s with store := st } : State).finishBulk ch Kind.segClose.code code payload).Lawful :=
      hs.finishBulk (v := { s with store := st }) (op := .verify id ch carried) (by rw [hst, hop, List.tail_cons])
        rfl rfl _ _ _
    unfold State.completeVerify
    split
    · simp only []
      split
      · exact (finished ((s.store.dequeue id).update id _) rfl _ _).offerNotice _ _
      · exact finished ((s.store.dequeue id).update id _) rfl _ _
    · exact finished (s.store.dequeue id) rfl _ _
  · exact hs

theorem ChanRec.reset_lawful (ch : Chan) : ChanRec.reset.Lawful ch 0 0 := ChanRec.lawful_of_rest rfl rfl ch

/-- With no operation, no reservation and every channel at rest the laws hold. -/
theorem State.lawful_of_reset (hchn : s.chn = ChannelUnit.reset) (hqueue : s.store.queue = [])
    (hfilled : s.pkt.filled = []) (hreserved : s.pkt.reserved = []) : s.Lawful where
  chan ch := by
    rw [State.chan, Store.opsOf, PacketUnit.held, hchn, hqueue, hreserved, ChannelUnit.reset_get]
    exact ChanRec.reset_lawful ch
  total := by
    rw [PacketUnit.total, hfilled, hreserved]
    exact Nat.zero_le 16

theorem State.Lawful.resetEffect (hs : s.Lawful) (path : ResetPath) : (s.resetEffect path).Lawful := by
  unfold State.resetEffect
  split
  · exact hs.same rfl rfl rfl hs.total
  · exact State.lawful_of_reset rfl rfl rfl rfl
  · exact hs

/-- Entries that leave the response queue leave room. -/
theorem State.Lawful.withFilled (hs : s.Lawful) {filled : List Entry} (h : filled.length ≤ s.pkt.filled.length) :
    ({ s with pkt := { s.pkt with filled := filled } } : State).Lawful :=
  hs.same rfl rfl rfl (Nat.le_trans (Nat.add_le_add_right h _) hs.total)

theorem State.Lawful.resetAtNoSignal (hs : s.Lawful) : s.resetAtNoSignal.Lawful := by
  unfold State.resetAtNoSignal
  split
  · exact (hs.withFilled (List.length_filter_le _ _)).resetEffect _
  · exact hs

theorem State.Lawful.fixFree (hs : s.Lawful) (width : Nat) : (s.fixFree width).1.Lawful := by
  unfold State.fixFree
  split
  · exact hs
  · next e rest hfilled =>
    have hleft : ({ s with pkt := { s.pkt with filled := rest } } : State).Lawful :=
      hs.withFilled (by rw [hfilled]; exact Nat.le_succ _)
    split
    · simp only []
      split
      · exact hleft.resetEffect _
      · exact hleft
    · exact hs

end Blocks

/-! ## A step as a course of block operations

Said once: what a step does to the channel records, the access queue and the response queue. Whatever the lock state
and the line, it is a course of the operations below, between which these blocks do not change. -/

/-- One operation on the channel records, the access queue or the response queue. -/
inductive State.Op (s : State) : State → Prop
  | quiet {t : State} (hchn : t.chn = s.chn) (hqueue : t.store.queue = s.store.queue)
      (hfilled : t.pkt.filled = s.pkt.filled) (hreserved : t.pkt.reserved = s.pkt.reserved) : State.Op s t
  | notice (k : NoticeKind) (data : List Byte) : State.Op s (s.offerNotice k data)
  | fragment (f : Fragment) : State.Op s (s.fragment f)
  | head (f : FrameNo) : State.Op s (s.atOutputHead f)
  | timeOut (ch : Chan) : State.Op s (s.timeOut ch)
  | freeLine (width : Nat) : State.Op s (s.fixFree width).1
  | resetAtNoSignal : State.Op s s.resetAtNoSignal
  | writeCompletion : State.Op s s.writeCompletion
  | verifyCompletion : State.Op s s.verifyCompletion
  | hardReset (strap : BitVec 5) : State.Op s { State.afterHardReset strap with pending := s.pending }

/-- State `t` comes from `s` by operations one after the other. -/
inductive State.Course : State → State → Prop
  | refl (s : State) : State.Course s s
  | step {s t u : State} (h : State.Course s t) (hop : t.Op u) : State.Course s u

namespace State.Course

variable {s t u : State}

theorem trans (h : s.Course t) (k : t.Course u) : s.Course u := by
  induction k with
  | refl => exact h
  | step _ hop ih => exact .step ih hop

theorem op (h : s.Op t) : s.Course t := .step (.refl s) h

/-- Nothing happens to the channel records and the two queues. -/
theorem quiet (hchn : t.chn = s.chn) (hqueue : t.store.queue = s.store.queue)
    (hfilled : t.pkt.filled = s.pkt.filled) (hreserved : t.pkt.reserved = s.pkt.reserved) : s.Course t :=
  op (.quiet hchn hqueue hfilled hreserved)

/-- A course from a state with the same channel records and the same two queues. -/
theorem after (k : t.Course u) (hchn : t.chn = s.chn) (hqueue : t.store.queue = s.store.queue)
    (hfilled : t.pkt.filled = s.pkt.filled) (hreserved : t.pkt.reserved = s.pkt.reserved) : s.Course u :=
  (quiet hchn hqueue hfilled hreserved).trans k

theorem foldl {α : Type} {g : State → α → State} (h : ∀ (s : State) (a : α), s.Course (g s a)) (l : List α)
    (s : State) : s.Course (l.foldl g s) := by
  induction l generalizing s with
  | nil => exact .refl s
  | cons a as ih => exact (h s a).trans (ih _)

/-- What every operation keeps, a course keeps. -/
theorem keeps {P : State → Prop} (hP : ∀ a b : State, a.Op b → P a → P b) (h : s.Course t) (hs : P s) : P t := by
  induction h with
  | refl => exact hs
  | step _ hop ih => exact hP _ _ hop ih

end State.Course

/-! ### An open head -/

theorem State.handOn_course (s : State) (f : Option Fragment) : s.Course (s.handOn f) := by
  cases f with
  | none => exact .refl s
  | some f => exact .op (.fragment f)

theorem State.receive_course (s : State) (k : Kind) (ch : Chan) (seq : SeqNo) (p : List Byte) :
    s.Course (s.receive k ch seq p) := by
  unfold State.receive
  split
  · exact State.Course.foldl (fun s f => .op (.fragment f)) _ s
  · exact .refl s

theorem State.activeRelease_course (s : State) (f : FrameNo) (id : Nat) : s.Course (s.activeRelease f id) := by
  unfold State.activeRelease
  split
  · exact .refl s
  · split
    · exact State.Course.after (.op (.notice _ _)) rfl rfl rfl rfl
    · exact .quiet rfl rfl rfl rfl

theorem State.activeMove_course (s : State) (f : FrameNo) (a b : Option Nat) : s.Course (s.activeMove f a b) := by
  have released : s.Course (match a with
      | some id => s.activeRelease f id
      | none => s) := by
    cases a with
    | none => exact .refl s
    | some id => exact s.activeRelease_course f id
  unfold State.activeMove
  split
  · exact .refl s
  · cases b with
    | none => exact released
    | some id => exact released.trans (.quiet rfl rfl rfl rfl)

theorem State.activeMoves_course (s : State) (f : FrameNo) (before after : List (Option Nat)) :
    s.Course (s.activeMoves f before after) :=
  State.Course.foldl (fun s (m : Option Nat × Option Nat) => s.activeMove_course f m.1 m.2) _ s

theorem State.reportApplied_course (s : State) (f : FrameNo) (set : Scheduled) : s.Course (s.reportApplied f set) := by
  have applied : s.Course (s.offerApplied f set) := .op (.notice _ _)
  cases htarget : set.target with
  | next => rwa [s.reportApplied_of_punctual (.inl htarget)]
  | atFrame n =>
    by_cases hn : f = n
    · subst hn
      rwa [s.reportApplied_of_punctual (.inr htarget)]
    · rw [s.reportApplied_of_late htarget hn]
      exact applied.trans (State.Course.after (.op (.notice _ _)) rfl rfl rfl rfl)

theorem State.applyDue_course (s : State) : s.Course s.applyDue := by
  unfold State.applyDue
  split
  · next f set _ =>
    have released : s.Course { s with comp := s.comp.apply set.edits, store := s.store.releaseStaged set.edits } :=
      .quiet rfl (Store.releaseStaged_queue _ _) rfl rfl
    have moved := released.trans (State.activeMoves_course _ f (s.comp.wins.map (·.segment))
      ((s.comp.apply set.edits).wins.map (·.segment)))
    exact moved.trans
      (State.Course.after (State.reportApplied_course _ f set) rfl rfl rfl rfl)
  · exact .refl s

theorem State.settle_course (s : State) : s.Course s.settle := by
  unfold State.settle
  split
  · exact s.applyDue_course.trans
      ((State.Course.foldl (fun s ch => .op (.timeOut ch)) [0, 1, 2, 3] _).trans (.quiet rfl rfl rfl rfl))
  · exact .refl s

/-! ### Lock states -/

theorem State.reportLock_course (s : State) (a b : LockState) (c : LockCause) : s.Course (s.reportLock a b c) :=
  State.Course.after (.op (.notice _ _)) rfl rfl rfl rfl

theorem State.enterNoSignal_course (s : State) (cause : LockCause) : s.Course (s.enterNoSignal cause) := by
  unfold State.enterNoSignal
  simp only []
  refine State.Course.trans ?_ (State.reportLock_course _ _ _ _)
  exact State.Course.after (.op .resetAtNoSignal) rfl rfl rfl rfl

theorem State.enter_course (s : State) (t : Timing) (cause : LockCause) : s.Course (s.enter t cause) :=
  State.Course.after (State.reportLock_course _ _ _ _) rfl rfl rfl rfl

theorem State.leaveLocked_course (s : State) (cause : LockCause) (g : Option Generator) :
    s.Course (s.leaveLocked cause g) := by
  unfold State.leaveLocked
  split
  · exact s.enterNoSignal_course cause
  · exact State.Course.after (State.enter_course _ _ _) rfl rfl rfl rfl

theorem State.leaveRejoining_course (s : State) : s.Course s.leaveRejoining := by
  unfold State.leaveRejoining
  split
  · exact s.enterNoSignal_course _
  · exact State.Course.after (State.enter_course _ _ _) rfl rfl rfl rfl

theorem State.absence_course (s : State) : s.Course s.absence := by
  unfold State.absence
  split
  · exact s.enterNoSignal_course _
  · exact s.leaveLocked_course _ _
  · exact s.leaveRejoining_course
  · exact .refl s
  · exact .refl s

theorem State.judgeFrame_course (s : State) (shape : Option FrameShape) : s.Course (s.judgeFrame shape) := by
  have assessed : s.Course (s.assess shape) := by
    unfold State.assess
    simp only []
    split
    · exact State.Course.after (State.enter_course _ _ _) rfl rfl rfl rfl
    · exact .quiet rfl rfl rfl rfl
  have judged : s.Course (s.judgeLocked shape) := by
    unfold State.judgeLocked
    split
    · exact .quiet rfl rfl rfl rfl
    · simp only []
      split
      · exact State.Course.after (State.leaveLocked_course _ _ _) rfl rfl rfl rfl
      · exact .quiet rfl rfl rfl rfl
  unfold State.judgeFrame
  split
  · exact assessed
  · exact assessed
  · exact judged
  · exact .refl s
  · exact .refl s

/-! ### Lines -/

theorem State.emitFree_course (s : State) (width : Nat) (source : LineSource) (offset : Option Nat) :
    s.Course (s.emitFree width source offset) :=
  (State.Course.op (.freeLine width)).trans (.quiet rfl rfl rfl rfl)

theorem State.flagPacket_course (s : State) (bytes : List Byte) : s.Course (s.flagPacket bytes) := by
  unfold State.flagPacket
  split
  · exact .quiet rfl rfl rfl rfl
  · exact .refl s

theorem State.relayManaged_course (s : State) (d : Disposition) (outside : Bool) (data : List DataWord) :
    s.Course (s.relayManaged d outside data) := by
  unfold State.relayManaged
  split
  · exact s.emitFree_course _ _ _
  · exact s.emitFree_course _ _ _
  all_goals exact .quiet rfl rfl rfl rfl

theorem State.relay_course (s : State) (fr : InFrame) (data : List DataWord) : s.Course (s.relay fr data).1 := by
  unfold State.relay
  split
  · exact State.Course.after (.op (.head _)) rfl rfl rfl rfl
  · unfold State.relayBlank
    split
    · exact (s.flagPacket_course _).trans (State.relayManaged_course _ _ _ _)
    · exact .quiet rfl rfl rfl rfl
  · unfold State.relayActive
    split
    · exact .quiet rfl rfl rfl rfl
    · simp only []
      split <;> exact .quiet rfl rfl rfl rfl
  · exact .quiet rfl rfl rfl rfl

theorem State.completeLine_course (s : State) (data : List DataWord) : s.Course (s.completeLine data).1 := by
  unfold State.completeLine
  split
  · exact .refl s
  · simp only []
    split
    · exact State.Course.after (State.relay_course _ _ _) rfl rfl rfl rfl
    · exact State.Course.after (State.relay_course _ _ _) rfl rfl rfl rfl
    · unfold State.examineOnly
      split
      · exact State.Course.after (State.flagPacket_course _ _) rfl rfl rfl rfl
      · exact .quiet rfl rfl rfl rfl
    · exact .refl s
    · exact .refl s

theorem State.openLine_course (s : State) (w : Lane) (n : Nat) : s.Course (s.openLine w n) := by
  unfold State.openLine
  split
  · exact .refl s
  · split
    · simp only []
      split
      · exact (s.judgeFrame_course none).trans (.quiet rfl rfl rfl rfl)
      · exact s.judgeFrame_course none
    · exact .quiet rfl rfl rfl rfl

theorem State.beginFrame_course (s : State) : s.Course s.beginFrame := .quiet rfl rfl rfl rfl

theorem State.takeHead_course (s : State) (n : Nat) : s.Course (s.takeHead n) := by
  unfold State.takeHead
  split
  · exact (s.judgeFrame_course _).trans (State.beginFrame_course _)
  · exact s.beginFrame_course

theorem State.frameHeadFollowed_course (s : State) (data : List DataWord) (n : Nat) (headFirst : Bool) :
    s.Course (s.frameHeadFollowed data n headFirst) := by
  unfold State.frameHeadFollowed
  split
  · unfold State.frameHeadLocking
    simp only []
    refine (s.judgeFrame_course (s.endedShape data n)).trans ((State.completeLine_course _ data).trans ?_)
    split
    · exact (State.beginFrame_course _).trans (State.handOn_course _ _)
    · exact (State.handOn_course _ _).trans (State.beginFrame_course _)
  · unfold State.frameHeadJudging
    simp only []
    refine (s.completeLine_course data).trans ((State.settle_course _).trans ?_)
    split
    · exact (State.takeHead_course _ _).trans (State.handOn_course _ _)
    · exact (State.handOn_course _ _).trans (State.takeHead_course _ _)

theorem State.frameHeadMarker_course (s : State) (data : List DataWord) (n : Nat) (headFirst : Bool) :
    s.Course (s.frameHeadMarker data n headFirst) := by
  unfold State.frameHeadMarker
  split
  · exact (s.enter_course _ _).trans (State.beginFrame_course _)
  · exact (s.enter_course _ _).trans (State.beginFrame_course _)
  all_goals exact s.frameHeadFollowed_course data n headFirst

theorem State.marker_course (s : State) (w : Lane) (data : List DataWord) (n : Nat) : s.Course (s.marker w data n) := by
  have followed : s.Course (s.markerFollowed w data n) :=
    (s.completeLine_course data).trans ((State.handOn_course _ _).trans (State.openLine_course _ _ _))
  unfold State.marker
  split
  · exact s.frameHeadMarker_course _ _ _
  · split
    · exact .refl s
    · exact .refl s
    all_goals exact followed

/-! ### The generator -/

theorem State.generatorHead_course (s : State) : s.Course s.generatorHead := by
  unfold State.generatorHead
  simp only []
  split
  · exact State.Course.after (State.enterNoSignal_course _ _) rfl rfl rfl rfl
  · split
    · exact State.Course.after (.op (.head _)) rfl rfl rfl rfl
    · exact .quiet rfl rfl rfl rfl

theorem State.generatorLine_course (s : State) (g : Generator) : s.Course (s.generatorLine g) := by
  unfold State.generatorLine
  simp only []
  split
  · split
    · exact State.Course.after (State.emitFree_course _ _ _ _) rfl rfl rfl rfl
    · exact .quiet rfl rfl rfl rfl
  all_goals exact .quiet rfl rfl rfl rfl

theorem State.generatorBegin_course (s : State) : s.Course s.generatorBegin := by
  unfold State.generatorBegin
  split
  · exact .refl s
  · split
    · split
      · exact s.generatorHead_course
      · exact .refl s
    · exact s.generatorLine_course _

/-! ### Commands -/

theorem State.resetEvent_course (s : State) (width : Nat) : s.Course (s.resetEvent width) := by
  unfold State.resetEvent
  split
  · exact .op .resetAtNoSignal
  · split
    · exact s.emitFree_course _ _ _
    · exact .refl s

/-- An event that occurs where its condition holds, and changes nothing elsewhere (log 4). -/
theorem State.Course.ite {s t : State} {c : Prop} [Decidable c] (h : s.Course t) : s.Course (if c then t else s) := by
  split
  · exact h
  · exact .refl s

/-- Every command is a course of operations. -/
theorem after_course (i : Instr) (s : State) : s.Course (s.after i) := by
  cases i with
  | hardReset strap => exact .op (.hardReset strap)
  | lineMarker w data n => exact s.settle_course.trans (State.marker_course _ _ _ _)
  | inputFrameHead data n headFirst => exact s.settle_course.trans (State.frameHeadMarker_course _ _ _ _)
  | absenceExpiry n => exact s.settle_course.trans (.ite (State.absence_course _))
  | generatorLineBegin => exact s.settle_course.trans (State.generatorBegin_course _)
  | holdoverLimitReached => exact s.settle_course.trans (.ite (State.generatorHead_course _))
  | setApplication => exact s.applyDue_course
  | assemblyTimeout => exact s.settle_course
  | responseEmission width => exact s.settle_course.trans (.ite (State.emitFree_course _ _ _ _))
  | segWriteCompletion => exact s.settle_course.trans (.op .writeCompletion)
  | verifyCompletion => exact s.settle_course.trans (.op .verifyCompletion)
  | partResetEffect width => exact s.settle_course.trans (State.resetEvent_course _ _)
  | _ => exact s.settle_course.trans (State.receive_course _ _ _ _ _)

/-- Every step is a course of operations. -/
theorem step_course {s t : State} (h : step s = .next t) : s.Course t := by
  unfold step at h
  split at h
  · cases h
    exact s.settle_course
  · next c rest _ =>
    rw [exec_next] at h
    cases h
    exact State.Course.after (after_course c _) rfl rfl rfl rfl

/-! ## The laws kept -/

/-- Each operation keeps the laws of the channels and the two queues. -/
theorem State.Op.keeps_lawful (s t : State) (h : s.Op t) (hs : s.Lawful) : t.Lawful := by
  cases h with
  | quiet hchn hqueue hfilled hreserved =>
    exact hs.same hchn hqueue hreserved (by rw [PacketUnit.total, hfilled, hreserved]; exact hs.total)
  | notice k data => exact hs.offerNotice k data
  | fragment f => exact hs.fragment f
  | head f => exact hs.atOutputHead f
  | timeOut ch => exact hs.timeOut ch
  | freeLine width => exact hs.fixFree width
  | resetAtNoSignal => exact hs.resetAtNoSignal
  | writeCompletion => exact hs.writeCompletion
  | verifyCompletion => exact hs.verifyCompletion
  | hardReset strap => exact State.lawful_of_reset rfl rfl rfl rfl

/-- Settles O7: the laws channel by channel, kept by each block operation of a step. -/
theorem channelAndQueueLawsKept : Obligations.ChannelAndQueueLawsKept := by
  refine ⟨State.channelLaw_iff, State.executingLaw_iff, State.queueLaw_iff, ?_⟩
  intro s t hchannel hexecuting hqueue hstep
  exact t.lawful_iff.mp
    ((step_course hstep).keeps State.Op.keeps_lawful (s.lawful_iff.mpr ⟨hchannel, hexecuting, hqueue⟩))

end Sys2Proof.Machine

namespace Sys2Proof.Machine

/-! ## A packet offered, and a fragment refused (R136, R156) -/

section Offered

variable {s : State}

theorem State.offer_of_room (h : s.pkt.total < 16) (packet : List Byte) : s.offer packet = s.queued packet :=
  if_pos (decide_eq_true h)

theorem State.offer_of_full (h : 16 ≤ s.pkt.total) (packet : List Byte) : s.offer packet = s := by
  have hroom : s.pkt.room = false := decide_eq_false (Nat.not_lt.mpr h)
  simp [State.offer, hroom]

theorem State.refuseFragment_of_room (h : s.pkt.total < 16) (f : Fragment) (code : Code) (data : List Byte) :
    s.refuseFragment f code data = s.queued (s.packet f.ch f.seq f.kind code data) :=
  State.offer_of_room h _

theorem State.refuseFragment_of_full (h : 16 ≤ s.pkt.total) (f : Fragment) (code : Code) (data : List Byte) :
    s.refuseFragment f code data = s :=
  State.offer_of_full h _

/-- A refusal offered by a part that has changed only a channel's record. -/
theorem State.setChan_refuseFragment (ch : Chan) (r : ChanRec) (f : Fragment) (code : Code) (data : List Byte) :
    (s.pkt.total < 16 → (s.setChan ch r).refuseFragment f code data =
      (s.setChan ch r).queued (s.packet f.ch f.seq f.kind code data)) ∧
    (16 ≤ s.pkt.total → (s.setChan ch r).refuseFragment f code data = s.setChan ch r) :=
  ⟨fun h => State.refuseFragment_of_room (s := s.setChan ch r) h f code data,
   fun h => State.refuseFragment_of_full (s := s.setChan ch r) h f code data⟩

end Offered

/-! ## A fragment, by the state of its channel (R142, R143, R147, R153, R154) -/

section ByState

variable {s : State} {f : Fragment} (hkind : f.kind ≠ 0x30)

include hkind

theorem State.fragment_of_idle (h : (s.chan f.ch).state = .idle) : s.fragment f = s.idleFragment f := by
  unfold State.fragment
  rw [if_neg (show f.kind ≠ Kind.resync.code from hkind), h]

theorem State.fragment_of_assembling {a : Assembly} (h : (s.chan f.ch).state = .assembling)
    (ha : (s.chan f.ch).assembly = some a) : s.fragment f = s.assemblingFragment f a := by
  unfold State.fragment
  rw [if_neg (show f.kind ≠ Kind.resync.code from hkind), h, ha]

theorem State.fragment_of_executing (h : (s.chan f.ch).state = .executing) : s.fragment f = s.executingFragment f := by
  unfold State.fragment
  rw [if_neg (show f.kind ≠ Kind.resync.code from hkind), h]

theorem State.fragment_of_halted (h : (s.chan f.ch).state = .halted) : s.fragment f = s.haltedFragment f := by
  unfold State.fragment
  rw [if_neg (show f.kind ≠ Kind.resync.code from hkind), h]

end ByState

/-! ## A duplicate of the last message (R144) -/

section Duplicate

variable {s : State} {f : Fragment}

theorem State.idleFragment_of_duplicate (h : f.seq = (s.chan f.ch).last) : s.idleFragment f = s.duplicate f :=
  if_pos h

theorem State.duplicate_of_not_last (h : f.last = false) : s.duplicate f = s := by
  simp only [State.duplicate, h]

theorem State.duplicate_of_cached {packet : List Byte} (hlast : f.last = true)
    (hcache : (s.chan f.ch).cache = some packet) (hroom : s.pkt.total < 16) : s.duplicate f = s.queued packet := by
  simp only [State.duplicate, hlast, hcache]
  exact State.offer_of_room hroom packet

theorem State.duplicate_of_none (h : (s.chan f.ch).cache = none ∨ 16 ≤ s.pkt.total) : s.duplicate f = s := by
  unfold State.duplicate
  split
  · next packet _ hcache =>
    rcases h with h | h
    · rw [h] at hcache
      cases hcache
    · exact State.offer_of_full h packet
  · rfl

end Duplicate

/-- A payload of at most the bytes of `fuel` fragments is cut into fragments of which exactly the final one is LAST. -/
theorem cutPayload_ends {fuel : Nat} (i : Nat) {p : List Byte} (hfuel : 0 < fuel) (hp : p.length ≤ 1024 * fuel) :
    ∃ front c, cutPayload fuel i p = front ++ [c] ∧ c.2.1 = true ∧ ∀ d ∈ front, d.2.1 = false := by
  induction fuel generalizing i p with
  | zero => exact absurd hfuel (Nat.lt_irrefl 0)
  | succ n ih =>
    unfold cutPayload
    split
    · exact ⟨[], (i, true, p), rfl, rfl, nofun⟩
    · next hlong =>
      unfold Config.fragmentBytes at hlong ⊢
      obtain ⟨front, c, hcut, hlast, hfront⟩ := ih (i + 1) (p := p.drop 1024) (by omega)
        (by rw [List.length_drop]; omega)
      refine ⟨(i, false, p.take 1024) :: front, c, by rw [hcut]; rfl, hlast, ?_⟩
      simpa using hfront

theorem State.foldl_fragment_of_ignored {s : State} {l : List Fragment} (h : ∀ f ∈ l, s.fragment f = s) :
    l.foldl State.fragment s = s := by
  induction l with
  | nil => rfl
  | cons f fs ih =>
    obtain ⟨hf, hfs⟩ := List.forall_mem_cons.mp h
    rw [List.foldl_cons, hf, ih hfs]

/-- A duplicate of the last message reaches its idle channel fragment by fragment: only the LAST one can do anything. -/
theorem State.receive_duplicate {s : State} {k : Kind} {ch : Chan} {p : List Byte} (hk : k ≠ .resync)
    (hlines : s.takesLines = true) (hidle : (s.chan ch).state = .idle) (hp : p.length ≤ 8192) :
    ∃ f : Fragment, f.ch = ch ∧ f.last = true ∧ s.receive k ch (s.chan ch).last p = s.duplicate f := by
  have piece (c : Nat × Bool × List Byte) : s.fragment (k.piece ch (s.chan ch).last c) =
      s.duplicate (k.piece ch (s.chan ch).last c) :=
    (State.fragment_of_idle (Kind.code_ne_resync hk) hidle).trans (State.idleFragment_of_duplicate rfl)
  obtain ⟨front, c, hcut, hlast, hfront⟩ := cutPayload_ends 0 (fuel := 8) (p := p) (by decide) (by omega)
  have hignored : (front.map (k.piece ch (s.chan ch).last)).foldl State.fragment s = s := by
    refine State.foldl_fragment_of_ignored fun g hg => ?_
    obtain ⟨d, hd, rfl⟩ := List.mem_map.mp hg
    rw [piece]
    exact State.duplicate_of_not_last (hfront d hd)
  refine ⟨k.piece ch (s.chan ch).last c, rfl, hlast, ?_⟩
  rw [State.receive, if_pos hlines, fragmentsOf_eq, hcut, List.map_append, List.foldl_append, hignored]
  exact piece c

/-- Settles O48: the channel is idle, so a fragment is handled as a duplicate; of a message's fragments the final one
alone is LAST. -/
theorem duplicateAnswered : Obligations.DuplicateAnswered := by
  refine ⟨?_, ?_⟩
  · intro u f r hkind hidle hseq
    rw [State.fragment_of_idle hkind hidle, State.idleFragment_of_duplicate hseq]
    exact ⟨State.duplicate_of_not_last, fun packet => State.duplicate_of_cached,
      fun _ => State.duplicate_of_none⟩
  · intro s k ch p u hk hlines hidle hp
    obtain ⟨f, rfl, hlast, hreceive⟩ := State.receive_duplicate hk hlines hidle hp
    rw [exec_command, hreceive]
    exact ⟨fun packet hcache hroom => congrArg _ (State.duplicate_of_cached hlast hcache hroom),
      fun h => congrArg _ (State.duplicate_of_none h)⟩

/-! ## Fragments refused (R145, R153, R154) -/

section Refused

variable {s : State} {f : Fragment}

theorem State.idleFragment_of_outOfSequence (hlast : f.seq ≠ (s.chan f.ch).last)
    (hnext : f.seq ≠ (s.chan f.ch).last + 1) : s.idleFragment f = s.outOfSequence f := by
  simp only [State.idleFragment, if_neg hlast, if_neg hnext]

theorem State.outOfSequence_of_bulk (h : f.ch ≠ 0) :
    s.outOfSequence f = (s.setChan f.ch { s.chan f.ch with state := .halted }).refuseFragment f .sequence
      [f.seq.setWidth 8, ((s.chan f.ch).last + 1).setWidth 8, 1] :=
  if_neg h

theorem State.outOfSequence_of_first (h : f.ch = 0) (hindex : f.index = 0) :
    s.outOfSequence f = s.refuseFragment f .sequence
      [f.seq.setWidth 8, ((s.chan f.ch).last + 1).setWidth 8, 0] :=
  (if_pos h).trans (if_pos hindex)

theorem State.outOfSequence_of_later (h : f.ch = 0) (hindex : f.index ≠ 0) : s.outOfSequence f = s :=
  (if_pos h).trans (if_neg hindex)

theorem State.executingFragment_of_ignored (h : f.seq = (s.chan f.ch).last ∨ f.last = false) :
    s.executingFragment f = s := by
  unfold State.executingFragment
  rcases h with h | h <;> simp [h]

theorem State.executingFragment_of_last (hseq : f.seq ≠ (s.chan f.ch).last) (hlast : f.last = true) :
    s.executingFragment f = s.refuseFragment f .busy [(s.chan f.ch).last.setWidth 8] :=
  (if_neg hseq).trans (if_pos hlast)

theorem State.executingFragment_of_full (h : 16 ≤ s.pkt.total) : s.executingFragment f = s := by
  simp only [State.executingFragment, State.refuseFragment_of_full h, ite_self]

theorem State.haltedFragment_of_not_last (h : f.last = false) : s.haltedFragment f = s := by
  simp [State.haltedFragment, h]

theorem State.haltedFragment_of_last (h : f.last = true) :
    s.haltedFragment f = s.refuseFragment f .halted [(s.chan f.ch).last.setWidth 8] :=
  if_pos h

theorem State.haltedFragment_of_full (h : 16 ≤ s.pkt.total) : s.haltedFragment f = s := by
  simp only [State.haltedFragment, State.refuseFragment_of_full h, ite_self]

end Refused

/-- Settles O49: by the state of the channel; at IDLE by the channel and the index, elsewhere by the LAST flag. -/
theorem fragmentRefused : Obligations.FragmentRefused := by
  intro u f r halted refusal hkind
  refine ⟨fun hidle hlast hnext => ?_, fun hexec h => ?_, fun hexec hseq hlast hroom => ?_, fun hhalt hlast => ?_,
    fun hhalt hlast hroom => ?_, ?_⟩
  · rw [State.fragment_of_idle hkind hidle, State.idleFragment_of_outOfSequence hlast hnext]
    refine ⟨fun hbulk hroom => ?_, fun hbulk hfull => ?_, fun hzero hindex hroom => ?_, fun hzero hindex hfull => ?_,
      fun hzero hindex => State.outOfSequence_of_later hzero hindex⟩
    · rw [State.outOfSequence_of_bulk hbulk]
      exact (State.setChan_refuseFragment f.ch _ f .sequence _).1 hroom
    · rw [State.outOfSequence_of_bulk hbulk]
      exact (State.setChan_refuseFragment f.ch _ f .sequence _).2 hfull
    · rw [State.outOfSequence_of_first hzero hindex]
      exact State.refuseFragment_of_room hroom f .sequence _
    · rw [State.outOfSequence_of_first hzero hindex]
      exact State.refuseFragment_of_full hfull f .sequence _
  · rw [State.fragment_of_executing hkind hexec]
    exact State.executingFragment_of_ignored h
  · rw [State.fragment_of_executing hkind hexec, State.executingFragment_of_last hseq hlast]
    exact State.refuseFragment_of_room hroom f .busy _
  · rw [State.fragment_of_halted hkind hhalt]
    exact State.haltedFragment_of_not_last hlast
  · rw [State.fragment_of_halted hkind hhalt, State.haltedFragment_of_last hlast]
    exact State.refuseFragment_of_room hroom f .halted _
  · rintro (hexec | hhalt) hfull
    · rw [State.fragment_of_executing hkind hexec]
      exact State.executingFragment_of_full hfull
    · rw [State.fragment_of_halted hkind hhalt]
      exact State.haltedFragment_of_full hfull

/-! ## Fragments joined (R143, R146, R147) -/

section Joined

variable {s : State} {f : Fragment}

theorem Fragment.badSize_iff : f.badSize = true ↔ f.last = false ∧ (f.payload.length ≠ 1024 ∨ f.index = 7) := by
  simp [Fragment.badSize, Config.fragmentBytes]

/-- The size refusal (R146), with the assembly dropped whether or not it finds room (R156). -/
theorem State.refuseSize_spec (s : State) (f : Fragment) :
    (s.pkt.total < 16 → s.refuseSize f = (s.dropAssembly f.ch).queued
      (s.packet f.ch f.seq f.kind .fragmentSize (byte f.index :: be2 f.payload.length))) ∧
    (16 ≤ s.pkt.total → s.refuseSize f = s.dropAssembly f.ch) :=
  State.setChan_refuseFragment f.ch _ f .fragmentSize _

section Next

variable (hseq : f.seq = (s.chan f.ch).last + 1)

include hseq

theorem State.idleFragment_of_later (h : f.index ≠ 0) : s.idleFragment f = s := by
  simp [State.idleFragment, hseq, h]

theorem State.idleFragment_of_single (hindex : f.index = 0) (hlast : f.last = true) :
    s.idleFragment f = s.complete f.ch f.seq f.kind f.payload := by
  simp [State.idleFragment, hseq, hindex, hlast]

theorem State.idleFragment_of_badSize (hindex : f.index = 0) (h : f.badSize = true) :
    s.idleFragment f = s.refuseSize f := by
  simp [State.idleFragment, hseq, hindex, (Fragment.badSize_iff.mp h).1, h]

theorem State.idleFragment_of_first (hindex : f.index = 0) (hlast : f.last = false) (h : f.badSize ≠ true) :
    s.idleFragment f = s.setChan f.ch { s.chan f.ch with
      state := .assembling
      assembly := some { seq := f.seq, kind := f.kind, frags := [f.payload], heads := 0 } } := by
  simp [State.idleFragment, hseq, hindex, hlast, h]

end Next

section SameMessage

variable {a : Assembly} (hseq : f.seq = a.seq)

include hseq

theorem State.assemblingFragment_of_badSize (hindex : f.index = a.frags.length) (h : f.badSize = true) :
    s.assemblingFragment f a = s.refuseSize f := by
  simp only [State.assemblingFragment, if_pos hseq, if_pos hindex, if_pos h]

theorem State.assemblingFragment_of_last (hindex : f.index = a.frags.length) (hlast : f.last = true) :
    s.assemblingFragment f a = s.complete f.ch a.seq a.kind (a.frags ++ [f.payload]).flatten := by
  have hsize : f.badSize ≠ true := by simp [Fragment.badSize, hlast]
  simp only [State.assemblingFragment, if_pos hseq, if_pos hindex, if_neg hsize, if_pos hlast]

theorem State.assemblingFragment_of_joined (hindex : f.index = a.frags.length) (hlast : f.last = false)
    (h : f.badSize ≠ true) : s.assemblingFragment f a =
      s.setChan f.ch { s.chan f.ch with assembly := some { a with frags := a.frags ++ [f.payload] } } := by
  simp only [State.assemblingFragment, if_pos hseq, if_pos hindex, if_neg h, hlast, Bool.false_eq_true, if_false]

theorem State.assemblingFragment_of_held (h : f.index < a.frags.length) : s.assemblingFragment f a = s := by
  simp only [State.assemblingFragment, if_pos hseq, if_neg (Nat.ne_of_lt h), if_pos h]

theorem State.assemblingFragment_of_gap (h : a.frags.length < f.index) : s.assemblingFragment f a =
    (s.dropAssembly f.ch).refuseFragment f .fragmentGap [f.seq.setWidth 8, byte a.frags.length, byte f.index] := by
  simp only [State.assemblingFragment, if_pos hseq, if_neg (Nat.ne_of_gt h), if_neg (Nat.not_lt_of_gt h)]

end SameMessage

theorem State.assemblingFragment_of_other {a : Assembly} (hkind : f.kind ≠ 0x30) (h : f.seq ≠ a.seq) :
    s.assemblingFragment f a = (s.dropAssembly f.ch).fragment f := by
  have hidle : ((s.dropAssembly f.ch).chan f.ch).state = .idle := by simp [State.dropAssembly]
  rw [State.fragment_of_idle hkind hidle, State.assemblingFragment, if_neg h]

end Joined

theorem State.chan_set (s : State) (ch c : Chan) (r : ChanRec) :
    ({ s with chn := s.chn.set ch r } : State).chan c = if c = ch then r else s.chan c := by
  by_cases h : c = ch
  · subst h
    rw [if_pos rfl]
    exact s.chan_setChan_same c r
  · rw [if_neg h]
    exact s.chan_setChan_other r h

/-- Settles O50: at IDLE by index and LAST flag, in ASSEMBLING by the sequence and then by the index against the number
of fragments held; the size check is the same in both. -/
theorem fragmentsJoined : Obligations.FragmentsJoined := by
  refine ⟨fun u => rfl, fun u ch c r => u.chan_set ch c r, fun u c g => u.chn.get_map g c, ?_⟩
  intro u f r dropped sizeRefusal hkind
  refine ⟨fun hidle hseq => ?_, fun a hstate ha => ?_⟩
  · rw [State.fragment_of_idle hkind hidle]
    refine ⟨State.idleFragment_of_single hseq, fun hindex hlast hlen => ?_, fun hindex hlast hlen => ?_,
      State.idleFragment_of_later hseq⟩
    · exact State.idleFragment_of_first hseq hindex hlast (by simp [Fragment.badSize_iff, hlen, hindex])
    · rw [State.idleFragment_of_badSize hseq hindex (Fragment.badSize_iff.mpr ⟨hlast, .inl hlen⟩)]
      exact u.refuseSize_spec f
  · rw [State.fragment_of_assembling hkind hstate ha]
    refine ⟨State.assemblingFragment_of_other hkind, fun hseq => ⟨fun hindex hlast hlen hseven => ?_,
      State.assemblingFragment_of_last hseq, State.assemblingFragment_of_held hseq, fun hindex hlast hsize => ?_,
      fun hgap => ?_⟩⟩
    · exact State.assemblingFragment_of_joined hseq hindex hlast (by simp [Fragment.badSize_iff, hlen, hseven])
    · rw [State.assemblingFragment_of_badSize hseq hindex (Fragment.badSize_iff.mpr ⟨hlast, hsize⟩)]
      exact u.refuseSize_spec f
    · rw [State.assemblingFragment_of_gap hseq hgap]
      exact State.setChan_refuseFragment f.ch _ f .fragmentGap _

/-! ## Assembly timeouts (R148, R184) -/

theorem State.timeOut_eq_timedOut (s : State) (ch : Chan) : s.timeOut ch = s.timedOut ch := rfl

theorem State.timeOutAll_eq_timedOut (s : State) :
    s.timeOutAll = (((s.timedOut 0).timedOut 1).timedOut 2).timedOut 3 := by
  simp only [State.timeOutAll, List.foldl_cons, List.foldl_nil, State.timeOut_eq_timedOut]

/-- Settles O52: an open head is settled by the application, which SET_APPLICATION is, and then channel by channel. -/
theorem assembliesTimeOut : Obligations.AssembliesTimeOut := by
  intro s
  refine ⟨fun hopen => ⟨s.applyDue, rfl, ?_⟩, s.settle_of_closed, rfl⟩
  rw [State.settle, if_pos hopen, State.timeOutAll_eq_timedOut]

/-! ## RESYNC (R155) -/

section Resync

variable {s : State} {f : Fragment}

theorem State.fragment_of_resync (h : f.kind = 0x30) : s.fragment f = s.resyncFragment f := if_pos h

theorem State.resyncFragment_of_pieces (h : f.index ≠ 0 ∨ f.last = false) : s.resyncFragment f = s := if_pos h

section Whole

variable (hindex : f.index = 0) (hlast : f.last = true)

include hindex hlast

theorem State.resyncFragment_of_executing (h : (s.chan f.ch).state = .executing) :
    s.resyncFragment f = s.refuseFragment f .busy [(s.chan f.ch).last.setWidth 8] := by
  simp [State.resyncFragment, hindex, hlast, h]

theorem State.resyncFragment_of_full (h : (s.chan f.ch).state ≠ .executing) (hfull : 16 ≤ s.pkt.total) :
    s.resyncFragment f = s.raise .responseDropped := by
  have hroom : s.pkt.room = false := decide_eq_false (Nat.not_lt.mpr hfull)
  simp [State.resyncFragment, hindex, hlast, h, hroom]

theorem State.resyncFragment_of_room (h : (s.chan f.ch).state ≠ .executing) (hroom : s.pkt.total < 16) :
    s.resyncFragment f = (s.reserve f.ch).judgeResync f := by
  have hroom : s.pkt.room = true := decide_eq_true hroom
  simp [State.resyncFragment, hindex, hlast, h, hroom]

end Whole

end Resync

/-- The one fragment of a RESYNC row. -/
def resyncOf (ch : Chan) (seq : SeqNo) (p : List Byte) : Fragment :=
  { ch := ch, index := 0, last := true, seq := seq, kind := 0x30, payload := p }

theorem exec_resync {s : State} (hlines : s.settle.takesLines = true) (ch : Chan) (seq : SeqNo) {p : List Byte}
    (hp : p.length ≤ 1024) : exec (.resync ch seq p) s = .next (s.settle.resyncFragment (resyncOf ch seq p)) := by
  have hone : fragmentsOf .resync ch seq p = [resyncOf ch seq p] := by
    rw [fragmentsOf, cutPayload, if_pos (show p.length ≤ Config.fragmentBytes from hp)]
    rfl
  rw [show Instr.resync ch seq p = Kind.resync.command ch seq p from rfl, exec_command, State.receive, if_pos hlines,
    hone]
  exact congrArg Host.Outcome.next (State.fragment_of_resync (f := resyncOf ch seq p) rfl)

/-- Settles O53: a RESYNC row is one fragment; by the state of its channel, the room, and the generic checks. -/
theorem resynchronised : Obligations.Resynchronised := by
  intro s ch seq p u r hlines hp
  rw [exec_resync hlines ch seq hp]
  have hresync : Kind.ofCode? 0x30 = some .resync := rfl
  refine ⟨fun hstate hroom hreset hempty => ?_, fun hstate hroom hfilled => ?_, fun hstate hroom hreset hempty => ?_,
    fun hstate hfull => ?_, fun hstate hroom => ?_, fun hstate hfull => ?_, ?_⟩
  · have htaken : u.genericRefusal 0x30 ch p = none :=
      State.genericRefusal_eq_none (k := .resync) rfl (by simp [Kind.lengthAllowed, hempty]) hreset
    rw [State.resyncFragment_of_room rfl rfl hstate hroom, State.judgeResync_taken _ htaken]
    rfl
  · have hrefused : u.genericRefusal 0x30 ch p =
        some (.badLength, be2 p.length ++ be2 (Kind.resync.requiredLength p).toNat) :=
      State.genericRefusal_badLength hresync rfl (by simpa [Kind.lengthAllowed] using hfilled)
    have hzero : (Kind.resync.requiredLength p).toNat = 0 :=
      Kind.requiredLength_of_stated (k := .resync) rfl (by decide)
    rw [State.resyncFragment_of_room rfl rfl hstate hroom, State.judgeResync_refused _ hrefused, hzero]
    rfl
  · have hrefused : u.genericRefusal 0x30 ch p = some (.resetting, []) :=
      State.genericRefusal_resets hresync rfl (by simp [Kind.lengthAllowed, hempty]) hreset
    rw [State.resyncFragment_of_room rfl rfl hstate hroom, State.judgeResync_refused _ hrefused]
    rfl
  · rw [State.resyncFragment_of_full rfl rfl hstate hfull]
    rfl
  · rw [State.resyncFragment_of_executing rfl rfl hstate]
    exact congrArg Host.Outcome.next (State.refuseFragment_of_room hroom _ _ _)
  · rw [State.resyncFragment_of_executing rfl rfl hstate]
    exact congrArg Host.Outcome.next (State.refuseFragment_of_full hfull _ _ _)
  · intro f hkind hpieces
    rw [State.fragment_of_resync hkind]
    exact State.resyncFragment_of_pieces hpieces

end Sys2Proof.Machine

namespace Sys2Proof.Machine

/-! ## The codes and parameters that a payload may name (section 11.2, R172, R175, R185) -/

theorem Depth.ofNat?_isSome_iff (n : Nat) : (Depth.ofNat? n).isSome = true ↔ n = 1 ∨ n = 2 ∨ n = 4 ∨ n = 8 := by
  match n with
  | 0 | 1 | 2 | 3 | 4 | 5 | 6 | 7 | 8 => decide
  | n + 9 => simp [Depth.ofNat?]

theorem Scale.ofNat?_isSome_iff (n : Nat) : (Scale.ofNat? n).isSome = true ↔ n = 1 ∨ n = 2 ∨ n = 4 := by
  match n with
  | 0 | 1 | 2 | 3 | 4 => decide
  | n + 5 => simp [Scale.ofNat?]

theorem ShowCond.ofNat?_isSome_iff (n : Nat) : (ShowCond.ofNat? n).isSome = true ↔ n ≤ 2 := by
  match n with
  | 0 | 1 | 2 => decide
  | n + 3 => simp [ShowCond.ofNat?]

theorem ResetScope.ofNat?_isSome_iff (n : Nat) : (ResetScope.ofNat? n).isSome = true ↔ n = 1 ∨ n = 2 := by
  match n with
  | 0 | 1 | 2 => decide
  | n + 3 => simp [ResetScope.ofNat?]

theorem paramFits_iff (ident value : Nat) : paramFits ident value = true ↔ paramInRange ident value := by
  match ident with
  | 0 | 1 | 2 | 3 | 4 | 5 | 6 | n + 7 => simp [paramFits, paramRange, paramInRange]

theorem paramRange_isSome_iff (ident : Nat) : (paramRange ident).isSome = true ↔ 1 ≤ ident ∧ ident ≤ 6 := by
  match ident with
  | 0 | 1 | 2 | 3 | 4 | 5 | 6 => decide
  | n + 7 => simp [paramRange]

/-! ## Value checks and the rules they decide (R166) -/

/-- The checks decide the rules in order: at each position, once the rules before it hold, the check passes exactly
where the rule holds. (A check on two fields relies on the earlier one being in range.) -/
def Decides : List (Nat × Bool) → List (Nat × Prop) → Prop
  | [], [] => True
  | check :: checks, rule :: rules =>
    check.1 = rule.1 ∧ (check.2 = true ↔ rule.2) ∧ (rule.2 → Decides checks rules)
  | [], _ :: _ => False
  | _ :: _, [] => False

@[simp] theorem decides_nil : Decides [] [] := trivial

@[simp] theorem decides_cons {check : Nat × Bool} {checks : List (Nat × Bool)} {rule : Nat × Prop}
    {rules : List (Nat × Prop)} : Decides (check :: checks) (rule :: rules) ↔
      check.1 = rule.1 ∧ (check.2 = true ↔ rule.2) ∧ (rule.2 → Decides checks rules) := Iff.rfl

theorem Decides.append {c₁ c₂ : List (Nat × Bool)} {r₁ r₂ : List (Nat × Prop)} (h₁ : Decides c₁ r₁)
    (h₂ : Decides c₂ r₂) : Decides (c₁ ++ c₂) (r₁ ++ r₂) := by
  induction c₁ generalizing r₁ with
  | nil =>
    cases r₁ with
    | nil => exact h₂
    | cons rule rules => exact h₁.elim
  | cons check checks ih =>
    cases r₁ with
    | nil => exact h₁.elim
    | cons rule rules =>
      obtain ⟨hpos, hcheck, hrest⟩ := h₁
      exact ⟨hpos, hcheck, fun hrule => ih (hrest hrule)⟩

theorem Decides.flatMap {c : Nat → List (Nat × Bool)} {r : Nat → List (Nat × Prop)} (h : ∀ k, Decides (c k) (r k))
    (ks : List Nat) : Decides (ks.flatMap c) (ks.flatMap r) := by
  induction ks with
  | nil => exact decides_nil
  | cons k ks ih => exact (h k).append ih

theorem firstBad_cons_of_pass {check : Nat × Bool} (h : check.2 = true) (checks : List (Nat × Bool)) :
    firstBad (check :: checks) = firstBad checks := by
  simp [firstBad, h]

theorem firstBad_cons_of_fail {check : Nat × Bool} (h : ¬ check.2 = true) (checks : List (Nat × Bool)) :
    firstBad (check :: checks) = some check.1 := by
  simp [firstBad, h]

/-- The first rule that fails is the first check that fails. -/
theorem Decides.firstBad_eq_some {checks : List (Nat × Bool)} {rules : List (Nat × Prop)} (h : Decides checks rules)
    {i : Nat} {rule : Nat × Prop} (hat : rules[i]? = some rule) (hfails : ¬ rule.2)
    (hbefore : ∀ (j : Nat) (r : Nat × Prop), j < i → rules[j]? = some r → r.2) :
    firstBad checks = some rule.1 := by
  induction checks generalizing rules i with
  | nil =>
    cases rules with
    | nil => cases hat
    | cons _ _ => exact h.elim
  | cons check checks ih =>
    cases rules with
    | nil => exact h.elim
    | cons first rules =>
      obtain ⟨hpos, hcheck, hrest⟩ := h
      cases i with
      | zero =>
        obtain rfl := Option.some.inj hat
        rw [firstBad_cons_of_fail fun hpass => hfails (hcheck.mp hpass), hpos]
      | succ i =>
        have hfirst : first.2 := hbefore 0 first i.succ_pos rfl
        rw [firstBad_cons_of_pass (hcheck.mpr hfirst)]
        exact ih (hrest hfirst) hat fun j r hj hr => hbefore (j + 1) r (Nat.succ_lt_succ hj) hr

/-- Where every rule holds, no check fails. -/
theorem Decides.firstBad_eq_none {checks : List (Nat × Bool)} {rules : List (Nat × Prop)} (h : Decides checks rules)
    (hall : ∀ rule ∈ rules, rule.2) : firstBad checks = none := by
  induction checks generalizing rules with
  | nil => rfl
  | cons check checks ih =>
    cases rules with
    | nil => exact h.elim
    | cons first rules =>
      obtain ⟨-, hcheck, hrest⟩ := h
      obtain ⟨hfirst, hothers⟩ := List.forall_mem_cons.mp hall
      rw [firstBad_cons_of_pass (hcheck.mpr hfirst)]
      exact ih (hrest hfirst) hothers

/-! ## The value checks of each kind -/

/-- A check says `<` where its rule says `≤`. -/
theorem decide_lt_succ_iff (a n : Nat) : decide (a < n + 1) = true ↔ a ≤ n :=
  decide_eq_true_iff.trans Nat.lt_succ_iff

/-- The value checks the owner of a kind makes. -/
def Kind.checks (k : Kind) (p : List Byte) : List (Nat × Bool) :=
  match k with
  | .winStage => winStageChecks p
  | .winPlace => winPlaceChecks p
  | .winShow => winShowChecks p
  | .palStage => palStageChecks p
  | .fillStage => fillStageChecks p
  | .setCommit => setCommitChecks p
  | .segCreate => segCreateChecks p
  | .queryStatus => queryStatusChecks p
  | .queryWindow => queryWindowChecks p
  | .queryPalette => queryPaletteChecks p
  | .paramSet => paramSetChecks p
  | .paramQuery => paramQueryChecks p
  | .partReset => partResetChecks p
  | _ => []

theorem State.takePartReset_of_bad (v : State) {p : List Byte} {pos : Nat}
    (h : firstBad (partResetChecks p) = some pos) : v.takePartReset p = (v, badValue pos) := by
  cases hscope : ResetScope.ofNat? (u1 p 0) with
  | none =>
    obtain rfl : 0 = pos := by simpa [partResetChecks, firstBad, hscope] using h
    simp only [State.takePartReset, hscope]
  | some scope => simp [partResetChecks, firstBad, hscope] at h

/-- Each owner makes its value checks before anything else (R166). -/
theorem State.dispatch_of_bad (v : State) {k : Kind} (ch : Chan) {p : List Byte} {pos : Nat}
    (h : firstBad (k.checks p) = some pos) : v.dispatch k ch p = (v, badValue pos) := by
  cases k
  case partReset => exact v.takePartReset_of_bad h
  case setDiscard | setWithdraw | segWrite | segClose | segDelete | querySegment | queryDirectory | resync => cases h
  all_goals
    simp only [Kind.checks] at h
    simp only [State.dispatch, State.takeWinStage, State.takeWinPlace, State.takeWinShow, State.takePalStage,
      State.takeFillStage, State.takeSetCommit, State.takeSegCreate, State.takeQueryStatus, State.takeQueryWindow,
      State.takeQueryPalette, State.takeParamSet, State.takeParamQuery, h]

/-- WIN_STAGE (R39): the key and the remap count are judged against a depth that is already known to be in range. -/
theorem winStage_decides (p : List Byte) : Decides (winStageChecks p) (Kind.winStage.valueRules p) := by
  have hkey (n : Nat) (hpresent : u1 p 20 ≤ 1) : (u1 p 20 = 0 ∨ u1 p 21 < n) ↔ (u1 p 20 = 1 → u1 p 21 < n) := by
    omega
  unfold winStageChecks Kind.valueRules
  refine ⟨rfl, decide_lt_succ_iff _ _, fun _ => ⟨rfl, decide_lt_succ_iff _ _, fun _ =>
    ⟨rfl, Depth.ofNat?_isSome_iff _, fun hdepth => ?_⟩⟩⟩
  obtain ⟨d, hd, hbits⟩ := Depth.ofNat?_of_bits hdepth
  simp +contextual [hd, hbits, hkey, Depth.remapCount_eq, Scale.ofNat?_isSome_iff, ShowCond.ofNat?_isSome_iff,
    Nat.lt_succ_iff]

theorem palEntry_decides (p : List Byte) (i : Nat) : Decides (palEntryChecks p i)
    [(i, u2 p i ≤ 1023), (i + 2, u2 p (i + 2) ≤ 1023), (i + 4, u2 p (i + 4) ≤ 1023), (i + 6, u2 p (i + 6) ≤ 16)] := by
  simp [palEntryChecks]

/-- The owner's checks are the rules of the kind, in the same order (R166). -/
theorem Kind.checks_decide (k : Kind) (p : List Byte) : Decides (k.checks p) (k.valueRules p) := by
  cases k
  case winStage => exact winStage_decides p
  case winPlace => simp [Kind.checks, Kind.valueRules, winPlaceChecks, Nat.lt_succ_iff]
  case winShow =>
    exact ⟨rfl, decide_lt_succ_iff _ _, fun _ => ⟨rfl, decide_lt_succ_iff _ _, fun _ => decides_nil⟩⟩
  case palStage =>
    exact ⟨rfl, decide_lt_succ_iff _ _, fun _ => ⟨rfl, by simp [and_assoc], fun _ =>
      Decides.flatMap (fun k => palEntry_decides p (4 + 8 * k)) _⟩⟩
  case fillStage => simp [Kind.checks, Kind.valueRules, fillStageChecks]
  case segCreate => simp [Kind.checks, Kind.valueRules, segCreateChecks]
  case setCommit | queryStatus | queryWindow => exact ⟨rfl, decide_lt_succ_iff _ _, fun _ => decides_nil⟩
  case queryPalette => simp [Kind.checks, Kind.valueRules, queryPaletteChecks, Nat.lt_succ_iff, and_assoc]
  case paramSet =>
    refine Decides.flatMap (fun k => ?_) _
    exact ⟨rfl, paramRange_isSome_iff _, fun _ => ⟨rfl, paramFits_iff _ _, fun _ => decides_nil⟩⟩
  case paramQuery =>
    simp only [Kind.checks, Kind.valueRules, paramQueryChecks, List.map_eq_flatMap]
    refine Decides.flatMap (fun k => ?_) _
    exact ⟨rfl, paramRange_isSome_iff _, fun _ => decides_nil⟩
  case partReset => simp [Kind.checks, Kind.valueRules, partResetChecks, ResetScope.ofNat?_isSome_iff]
  all_goals exact decides_nil

theorem Kind.onChannel_zero {k : Kind} (hwrite : k ≠ .segWrite) (hclose : k ≠ .segClose) : k.onChannel 0 = true := by
  cases k
  case segWrite => exact absurd rfl hwrite
  case segClose => exact absurd rfl hclose
  all_goals rfl

/-- Settles O21: the first rule that fails is the owner's first check that fails, and the owner refuses before it does
anything else. -/
theorem badValueRefused : Obligations.BadValueRefused := by
  intro s k seq p i pos holds u hready hwrite hclose hlen hp hat hfails hbefore
  have hresync : k ≠ .resync := by
    rintro rfl
    cases hat
  have hbad : firstBad (k.checks p) = some pos := (k.checks_decide p).firstBad_eq_some hat hfails hbefore
  exact exec_answered hready hresync (Kind.onChannel_zero hwrite hclose) ((k.lengthAllowed_iff p).mpr hlen) hp
    ((u.accepting 0 seq).dispatch_of_bad 0 hbad)

/-! ## PARAM_SET and PARAM_QUERY (R172, R173, R185) -/

theorem Params.get_set_same (q : Params) {ident : Nat} (h : 1 ≤ ident ∧ ident ≤ 6) (value : Nat) :
    (q.set ident value).get ident = value := by
  match ident with
  | 1 | 2 | 3 | 4 | 5 | 6 => rfl
  | 0 | n + 7 => omega

theorem Params.get_set_other (q : Params) {ident i : Nat} (h : ident ≠ i) (value : Nat) :
    (q.set ident value).get i = q.get i := by
  unfold Params.set Params.get
  split
  case h_7 => rfl
  all_goals split <;> simp_all

/-- The parameters after the first `n` pairs of a PARAM_SET, written in payload order. -/
def Params.written (q : Params) (p : List Byte) : Nat → Params
  | 0 => q
  | n + 1 => (q.written p n).set (u1 p (3 * n)) (u2 p (3 * n + 1))

theorem Params.foldl_paramPairs (q : Params) (p : List Byte) :
    (paramPairs p).foldl (fun q pair => q.set pair.1 pair.2) q = q.written p (p.length / 3) := by
  unfold paramPairs
  induction p.length / 3 with
  | zero => rfl
  | succ n ih => rw [List.range_succ, List.map_append, List.foldl_append, ih]; rfl

/-- A parameter that no pair names keeps its value. -/
theorem Params.get_written_of_unnamed (q : Params) {p : List Byte} {n i : Nat} (h : ∀ k < n, u1 p (3 * k) ≠ i) :
    (q.written p n).get i = q.get i := by
  induction n with
  | zero => rfl
  | succ n ih =>
    rw [Params.written, Params.get_set_other _ (h n n.lt_succ_self)]
    exact ih fun k hk => h k (Nat.lt_succ_of_lt hk)

/-- The last pair that names a parameter decides its value. -/
theorem Params.get_written_of_last (q : Params) {p : List Byte} {n k : Nat} (hk : k < n)
    (hident : 1 ≤ u1 p (3 * k) ∧ u1 p (3 * k) ≤ 6) (hlast : ∀ j, k < j → j < n → u1 p (3 * j) ≠ u1 p (3 * k)) :
    (q.written p n).get (u1 p (3 * k)) = u2 p (3 * k + 1) := by
  induction n with
  | zero => exact absurd hk k.not_lt_zero
  | succ n ih =>
    rw [Params.written]
    rcases Nat.lt_succ_iff_lt_or_eq.mp hk with hlt | rfl
    · rw [Params.get_set_other _ (hlast n hlt n.lt_succ_self)]
      exact ih hlt fun j hkj hj => hlast j hkj (Nat.lt_succ_of_lt hj)
    · exact Params.get_set_same _ hident _

theorem paramInRange.ident {ident value : Nat} (h : paramInRange ident value) : 1 ≤ ident ∧ ident ≤ 6 := by
  unfold paramInRange at h
  omega

theorem paramSetChecks_pass {p : List Byte} {n : Nat} (hlen : p.length = 3 * n)
    (h : ∀ k < n, paramInRange (u1 p (3 * k)) (u2 p (3 * k + 1))) : firstBad (paramSetChecks p) = none := by
  refine (Kind.paramSet.checks_decide p).firstBad_eq_none fun rule hrule => ?_
  obtain ⟨k, hk, hrule⟩ := List.mem_flatMap.mp hrule
  have hpair := h k (by have := List.mem_range.mp hk; omega)
  simp only [List.mem_cons, List.not_mem_nil, or_false] at hrule
  rcases hrule with rfl | rfl
  · exact hpair.ident
  · exact hpair

theorem paramQueryChecks_pass {p : List Byte} (h : ∀ k < p.length, 1 ≤ u1 p k ∧ u1 p k ≤ 6) :
    firstBad (paramQueryChecks p) = none := by
  refine (Kind.paramQuery.checks_decide p).firstBad_eq_none fun rule hrule => ?_
  obtain ⟨k, hk, rfl⟩ := List.mem_map.mp hrule
  exact h k (List.mem_range.mp hk)

theorem State.takeParamSet_writes (v : State) {p : List Byte} {n : Nat} (hlen : p.length = 3 * n)
    (h : ∀ k < n, paramInRange (u1 p (3 * k)) (u2 p (3 * k + 1))) :
    v.takeParamSet p =
      ({ v with status := { v.status with params := v.status.params.written p n } }, .answer .ok [byte n]) := by
  have hcount : p.length / 3 = n := by omega
  simp only [State.takeParamSet, paramSetChecks_pass hlen h, Params.foldl_paramPairs, hcount]

theorem State.takeParamQuery_answers (v : State) {p : List Byte} (h : ∀ k < p.length, 1 ≤ u1 p k ∧ u1 p k ≤ 6) :
    v.takeParamQuery p = (v, .answer .ok (p.flatMap fun b => b :: be2 (v.status.params.get b.toNat))) := by
  simp only [State.takeParamQuery, paramQueryChecks_pass h]

/-- Settles O55: in range, the pairs are written one after another, and a query is answered from the values in force. -/
theorem parametersSetAndQueried : Obligations.ParametersSetAndQueried := by
  refine ⟨fun _ => rfl, ?_⟩
  intro s seq p u hready
  constructor
  · intro n hlen hpos hle hpairs
    refine ⟨u.status.params.written p n, ?_, fun k hk hlast => ?_, fun i => Params.get_written_of_unnamed _⟩
    · exact exec_answered (k := .paramSet) (t := { u with status := { u.status with params := _ } }) hready (by decide)
        rfl ((Kind.lengthAllowed_iff _ _).mpr ⟨n, hpos, hle, hlen⟩) (by omega)
        ((u.accepting 0 seq).takeParamSet_writes hlen hpairs)
    · exact Params.get_written_of_last _ hk (hpairs k hk).ident hlast
  · intro hpos hle hidents
    exact exec_answered (k := .paramQuery) hready (by decide) rfl ((Kind.lengthAllowed_iff _ _).mpr ⟨hpos, hle⟩)
      (by omega) ((u.accepting 0 seq).takeParamQuery_answers hidents)

end Sys2Proof.Machine

namespace Sys2Proof.Machine

/-! ## The status record as a list of items (R181, section 11.8) -/

/-- The twelve items of the status record, in the order and with the bytes of section 11.8. -/
def State.statusItems (s : State) : List (List Byte) :=
  [[0x03, 0xA7, 0x01, 0xA4, 1, s.status.address.setWidth 8, byte s.timing.lock.code],
    geometryBytes s.timing.recorded,
    presentBe2 s.timing.frame,
    byte s.timing.faultCount :: be2 s.timing.holdoverCount,
    setCounts s.cset.openSet,
    scheduledBytes s.cset.scheduled,
    presentBe2 s.cset.lastApp,
    be2 s.store.freeList.length ++ [byte s.store.dir.length, byte s.store.queue.length],
    [byte s.chn.c0.state.code, byte s.chn.c1.state.code, byte s.chn.c2.state.code, byte s.chn.c3.state.code],
    [s.chn.c0.last.setWidth 8, s.chn.c1.last.setWidth 8, s.chn.c2.last.setWidth 8, s.chn.c3.last.setWidth 8],
    [byte s.pkt.filled.length, byte s.pkt.reserved.length],
    [byte s.status.lastReset.scopeCode, byte s.status.lastReset.pathCode, byte s.status.flags.weights]]

/-- The number of bytes of each item. -/
def statusWidths : List Nat := [7, 7, 3, 3, 3, 4, 3, 4, 4, 4, 2, 3]

theorem State.statusRecord_eq_flatten (s : State) : s.statusRecord = s.statusItems.flatten := by
  simp only [State.statusRecord, State.statusItems, List.flatten_cons, List.flatten_nil, List.append_assoc,
    List.append_nil, byte, BitVec.ofNat_toNat]
  rfl

theorem length_geometryBytes (g : Option FrameShape) : (geometryBytes g).length = 7 := by
  cases g <;> rfl

theorem length_presentBe2 (o : Option FrameNo) : (presentBe2 o).length = 3 := by
  cases o <;> rfl

theorem length_scheduledBytes (o : Option Scheduled) : (scheduledBytes o).length = 4 := by
  match o with
  | none | some ⟨_, .next⟩ | some ⟨_, .atFrame _⟩ => rfl

theorem State.statusItems_widths (s : State) : s.statusItems.map List.length = statusWidths := by
  simp only [State.statusItems, List.map_cons, List.map_nil, length_geometryBytes, length_presentBe2,
    length_scheduledBytes]
  rfl

theorem State.length_statusRecord (s : State) : s.statusRecord.length = 47 := by
  rw [State.statusRecord_eq_flatten, List.length_flatten, State.statusItems_widths]
  rfl

/-- Item `i` of lists laid end to end stands behind the lengths of those before it. -/
theorem take_drop_flatten (items : List (List Byte)) (i : Nat) (hi : i < items.length) :
    (items.flatten.drop ((items.map List.length).take i).sum).take items[i].length = items[i] := by
  induction items generalizing i with
  | nil => exact absurd hi (Nat.not_lt_zero i)
  | cons first items ih =>
    cases i with
    | zero => exact List.take_left
    | succ i =>
      simp only [List.flatten_cons, List.map_cons, List.take_succ_cons, List.sum_cons, List.drop_length_add_append]
      exact ih i (Nat.lt_of_succ_lt_succ hi)

/-- Item `i` of the record stands behind the widths of the items before it. -/
theorem State.statusRecord_item (s : State) (i : Fin 12) :
    (s.statusRecord.drop (statusWidths.take i).sum).take (statusWidths[i.val]'i.isLt) =
      s.statusItems[i.val]'i.isLt := by
  have hitem := take_drop_flatten s.statusItems i.val i.isLt
  have hwidth : (s.statusItems[i.val]'i.isLt).length = statusWidths[i.val]'i.isLt :=
    (List.getElem_map List.length).symm.trans (List.getElem_of_eq s.statusItems_widths i.isLt)
  rwa [← s.statusRecord_eq_flatten, s.statusItems_widths, hwidth] at hitem

theorem State.statusRecord_lastItem (s : State) : s.statusRecord.drop 44 =
    [byte s.status.lastReset.scopeCode, byte s.status.lastReset.pathCode, byte s.status.flags.weights] := by
  have htail : (s.statusRecord.drop 44).length ≤ 3 := by simp [s.length_statusRecord]
  rw [← List.take_of_length_le htail]
  exact s.statusRecord_item 11

/-! ## QUERY_STATUS (R180, R181) -/

theorem Flags.weights_eq (fl : Flags) : fl.weights =
    (if fl.lockChange then 1 else 0) + (if fl.geometryFault then 2 else 0) + (if fl.lateApply then 4 else 0) +
      (if fl.assemblyTimeout then 8 else 0) + (if fl.responseDropped then 16 else 0) +
      (if fl.noticeDropped then 32 else 0) + (if fl.packetCrc then 64 else 0) +
      (if fl.segmentReleased then 128 else 0) := by
  have weight_one (b : Bool) : b.toNat = if b then 1 else 0 := by cases b <;> rfl
  have weight (n : Nat) (b : Bool) : (n * if b then 1 else 0) = if b then n else 0 := by cases b <;> simp
  simp only [Flags.weights, weight_one, weight]

/-- The owner answers with the record as it stands before it clears the flags (R180, R181). -/
theorem State.takeQueryStatus_answers (v : State) {p : List Byte} (h : u1 p 0 ≤ 1) :
    v.takeQueryStatus p = ({ v with status := { v.status with
      flags := if u1 p 0 = 1 then Flags.clear else v.status.flags } }, .answer .ok v.statusRecord) := by
  have hchecks : firstBad (queryStatusChecks p) = none :=
    firstBad_eq_none (by simp [queryStatusChecks, Nat.lt_succ_of_le h])
  simp only [State.takeQueryStatus, hchecks]
  split <;> rfl

/-- Settles O54: the record is that of the state in which the owner finds the part, item by item; only the reservation
and the last sequence of channel 0 stand there otherwise than before the message (R182). -/
theorem statusReported : Obligations.StatusReported := by
  refine ⟨rfl, rfl, ⟨rfl, rfl⟩, fun _ => ⟨rfl, rfl⟩, fun _ => ⟨rfl, rfl⟩, Flags.weights_eq, ?_⟩
  intro s seq p u hready hlen hclear
  let v := u.accepting 0 seq
  refine ⟨v.statusRecord, ?_, v.length_statusRecord, ?_⟩
  · exact exec_answered (k := .queryStatus) (t := { u with status := { u.status with flags := _ } }) hready (by decide)
      rfl ((Kind.lengthAllowed_iff _ _).mpr hlen) (by omega) (v.takeQueryStatus_answers hclear)
  refine ⟨v.statusRecord_item 0, v.statusRecord_item 1, v.statusRecord_item 2, v.statusRecord_item 3,
    v.statusRecord_item 4, (v.statusRecord_item 5).trans ?_, v.statusRecord_item 6, v.statusRecord_item 7,
    v.statusRecord_item 8, v.statusRecord_item 9, v.statusRecord_item 10, v.statusRecord_lastItem⟩
  show scheduledBytes u.cset.scheduled = _
  match u.cset.scheduled with
  | none | some ⟨_, .next⟩ | some ⟨_, .atFrame _⟩ => rfl

end Sys2Proof.Machine

namespace Sys2Proof.Machine

/-! ## PART_RESET taken (R187) -/

/-- The marked OK uses up the reservation that the owner of a message on channel 0 finds, and is cached. -/
theorem State.accepting_answerMarked (u : State) (seq : SeqNo) (kind : Byte) (code : Code) (payload : List Byte) :
    (u.accepting 0 seq).answerWith 0 seq kind code payload true = { u with
      pkt := u.pkt.fill (u.packet 0 seq kind code payload) true
      chn := u.chn.set 0 (.answered seq (u.packet 0 seq kind code payload)) } := rfl

theorem ResetScope.ofNat?_code (scope : ResetScope) : ResetScope.ofNat? scope.code = some scope := by
  cases scope <;> rfl

theorem State.takePartReset_takes (v : State) (scope : ResetScope) :
    v.takePartReset [byte scope.code] =
      ({ v with status := { v.status with resetting := some scope } }, .marked [byte scope.code]) := by
  have hfield : u1 [byte scope.code] 0 = scope.code := by cases scope <;> rfl
  simp only [State.takePartReset, hfield, scope.ofNat?_code]

/-- Settles O56: the owner makes the part RESETTING and marks the OK, which fills the reservation and is cached. -/
theorem partResetTaken : Obligations.PartResetTaken := by
  intro s seq p scope u packet hready hp
  obtain rfl : p = [byte scope.code] := hp.trans (by cases scope <;> rfl)
  let t : State := { u with status := { u.status with resetting := some scope } }
  have howner : (u.accepting 0 seq).dispatch .partReset 0 [byte scope.code] =
      (t.accepting 0 seq, .marked [byte scope.code]) := (u.accepting 0 seq).takePartReset_takes scope
  have hreceive := State.receive_accepted (k := .partReset) (p := [byte scope.code]) hready (by decide) rfl rfl
    (by simp)
  rw [howner] at hreceive
  exact congrArg Host.Outcome.next (hreceive.trans (t.accepting_answerMarked seq 0x22 .ok [byte scope.code]))

/-! ## The emission of the marked OK (R188, R189) -/

theorem State.resetEffect_of_overlay {v : State} (h : v.status.resetting = some .overlay) (path : ResetPath) :
    v.resetEffect path = v.overlayReset path := by
  simp only [State.resetEffect, h]

theorem State.resetEffect_of_full {v : State} (h : v.status.resetting = some .full) (path : ResetPath) :
    v.resetEffect path = v.fullReset path := by
  simp only [State.resetEffect, h]

theorem State.markedFits_of_head {v : State} {width : Nat} {e : Entry} {rest : List Entry}
    (h : v.pkt.filled = e :: rest) (hmark : e.marked = true) (hwidth : wordsFor e.packet ≤ width) :
    v.markedFits width = true := by
  simp [State.markedFits, h, hmark, hwidth]

/-- While the output runs, the reset's own row is a free line that takes the marked OK (R188, log 22). -/
theorem State.resetEvent_of_fits {v : State} {width : Nat} (hlock : v.timing.lock ≠ .noSignal)
    (hreset : v.status.resetting.isSome = true) (hruns : v.outputRuns = true) (hfits : v.markedFits width = true) :
    v.resetEvent width = v.emitFree width v.lineSource none := by
  unfold State.resetEvent
  split
  · next hno => exact absurd hno hlock
  · simp only [hreset, hruns, hfits, Bool.and_self, if_true]

/-- Both rows are the same free line where the marked OK waits at the head of the queue and fits. -/
theorem exec_marked_free {s t : State} {width : Nat} {e : Entry} {rest : List Entry}
    (hruns : s.settle.timing.frame.isSome = true) (hlock : s.settle.timing.lock ≠ .noSignal)
    (hreset : s.settle.status.resetting.isSome = true) (hfilled : s.settle.pkt.filled = e :: rest)
    (hmark : e.marked = true) (hwidth : wordsFor e.packet ≤ width)
    (ht : (({ s.settle with pkt := { s.settle.pkt with filled := rest } } : State).resetEffect .emission).putLine .blank
      (packetLine e.packet width) s.settle.lineSource none = t) :
    exec (.partResetEffect width) s = .next t ∧ exec (.responseEmission width) s = .next t := by
  have hfree : s.settle.emitFree width s.settle.lineSource none = t :=
    (s.settle.emitFree_of_marked s.settle.lineSource none hfilled hwidth hmark).trans ht
  have hevent : s.settle.resetEvent width = t :=
    (State.resetEvent_of_fits hlock hreset hruns (State.markedFits_of_head hfilled hmark hwidth)).trans hfree
  exact ⟨congrArg Host.Outcome.next hevent, (exec_responseEmission_of_runs width hruns).trans
    (congrArg Host.Outcome.next hfree)⟩

/-- Settles O57: both rows emit the marked OK as the same free line, and the effect is that of the scope taken. -/
theorem partResetEffect : Obligations.PartResetEffect := by
  refine ⟨rfl, rfl, rfl, ?_⟩
  intro s width e rest u source comp link hruns hlock hfilled hmark hwidth
  let v : State := { u with pkt := { u.pkt with filled := rest } }
  constructor
  · intro hreset t
    have heffect : v.resetEffect .emission = v.overlayReset .emission := State.resetEffect_of_overlay (v := v) hreset _
    refine exec_marked_free hruns hlock (by rw [hreset]; rfl) hfilled hmark hwidth ?_
    exact congrArg (State.putLine · .blank (packetLine e.packet width) source none) heffect
  · intro hreset t
    have heffect : v.resetEffect .emission = v.fullReset .emission := State.resetEffect_of_full (v := v) hreset _
    refine exec_marked_free hruns hlock (by rw [hreset]; rfl) hfilled hmark hwidth ?_
    exact congrArg (State.putLine · .blank (packetLine e.packet width) source none) heffect

/-! ## The check value and the bytes of a packet (R126, R137) -/

/-- The bits of a check value as a loop. -/
theorem crcBits_eq_foldl {w : Nat} (poly : BitVec w) (n : Nat) (c : BitVec w) :
    crcBits poly n c = (List.range n).foldl (fun c _ => crcBit poly c) c := by
  induction n generalizing c with
  | zero => rfl
  | succ n ih =>
    rw [List.range_succ_eq_map, List.foldl_cons, List.foldl_map]
    exact ih _

theorem crc16_append (bs : List Byte) (b : Byte) :
    crc16 (bs ++ [b]) = (List.range 8).foldl (fun c _ => crcBit 0x1021 c) (crc16 bs ^^^ (b.setWidth 16 <<< 8)) := by
  rw [← crcBits_eq_foldl]
  simp only [crc16, List.foldl_append]
  rfl

theorem State.packet_eq (s : State) (ch : Chan) (seq : SeqNo) (kind : Byte) (code : Code) (payload : List Byte) :
    s.packet ch seq kind code payload = packetOf s.status.address ch seq kind code
      (match s.timing.frame with
        | some f => f.toNat
        | none => 0) payload := by
  unfold State.packet
  cases s.timing.frame <;> rfl

/-! ## A notice by NOTICE_MASK (R183) -/

theorem Params.noticeEnabled_iff (q : Params) (k : NoticeKind) :
    q.noticeEnabled k = true ↔ q.noticeMask / k.weight % 2 = 1 :=
  beq_iff_eq

/-- Settles O60: the bytes of a packet are those `packetOf` lays, and a notice offered meets one of its three
outcomes. -/
theorem noticeAdmission : Obligations.NoticeAdmission := by
  refine ⟨fun _ => ⟨rfl, rfl, rfl⟩, fun _ => rfl, rfl, fun _ => rfl, fun _ => ⟨rfl, rfl, rfl⟩, rfl, crc16_append,
    fun _ _ _ _ _ _ _ => rfl, State.packet_eq, by decide, rfl, ?_⟩
  intro s k data enabled
  refine ⟨fun hon hroom => ?_, fun hon hfull => ?_, fun hoff => ?_⟩
  · exact State.offerNotice_of_room ((s.status.params.noticeEnabled_iff k).mpr hon) hroom data
  · exact State.offerNotice_of_full ((s.status.params.noticeEnabled_iff k).mpr hon) hfull data
  · exact State.offerNotice_of_disabled (Bool.eq_false_iff.mpr fun h =>
      hoff ((s.status.params.noticeEnabled_iff k).mp h)) data

end Sys2Proof.Machine

namespace Sys2Proof.Machine

/-! ## Fields of a payload, written out as they were read (R195) -/

theorem u1_of_getElem? {p : List Byte} {i : Nat} {b : Byte} (h : p[i]? = some b) : u1 p i = b.toNat := by
  rw [u1, h, Option.getD_some]

theorem byte_toNat (b : Byte) : byte b.toNat = b := (BitVec.ofNat_toNat 8 b).trans (BitVec.setWidth_eq b)

theorem byte_u1 {p : List Byte} {i : Nat} (h : i < p.length) : byte (u1 p i) = p[i] := by
  rw [u1_of_getElem? (List.getElem?_eq_getElem h), byte_toNat]

theorem be2_u2 (p : List Byte) (i : Nat) : be2 (u2 p i) = [byte (u1 p i), byte (u1 p (i + 1))] := by
  have hlow := u1_lt p (i + 1)
  have hdiv : u2 p i / 256 = u1 p i := by rw [u2]; omega
  have hbyte : byte (u2 p i) = byte (u1 p (i + 1)) := BitVec.eq_of_toNat_eq (by
    rw [byte, byte, BitVec.toNat_ofNat, BitVec.toNat_ofNat, u2]
    omega)
  rw [be2, hdiv, hbyte]

/-- A payload from position `i` on is its one-byte field there and the rest. -/
theorem byte_u1_cons_drop {p : List Byte} {i : Nat} (h : i < p.length) :
    byte (u1 p i) :: p.drop (i + 1) = p.drop i := by
  rw [byte_u1 h, List.getElem_cons_drop]

/-- A payload from position `i` on is its two-byte field there and the rest. -/
theorem be2_u2_append_drop {p : List Byte} {i : Nat} (h : i + 2 ≤ p.length) :
    be2 (u2 p i) ++ p.drop (i + 2) = p.drop i := by
  calc be2 (u2 p i) ++ p.drop (i + 2)
      = byte (u1 p i) :: byte (u1 p (i + 1)) :: p.drop (i + 1 + 1) := by rw [be2_u2]; rfl
    _ = p.drop i := by rw [byte_u1_cons_drop (by omega), byte_u1_cons_drop (by omega)]

theorem map_byte_toNat (bs : List Byte) : (bs.map BitVec.toNat).map byte = bs := by
  rw [List.map_map, funext (f := byte ∘ BitVec.toNat) byte_toNat, List.map_id']

/-! ## Palette entries and colours (section 11.7) -/

theorem opacity_val {n : Nat} (h : n ≤ 16) : (Fin.ofNat 17 n).val = n := Nat.mod_eq_of_lt (Nat.lt_succ_of_le h)

theorem palEntryBytes_palEntryOf {p : List Byte} {i : Nat} (hy : u2 p i ≤ 1023) (hcb : u2 p (i + 2) ≤ 1023)
    (hcr : u2 p (i + 4) ≤ 1023) (hop : u2 p (i + 6) ≤ 16) (hlen : i + 8 ≤ p.length) :
    palEntryBytes (palEntryOf p i) = (p.drop i).take 8 := by
  have hdrop : palEntryBytes (palEntryOf p i) ++ p.drop (i + 8) = p.drop i := by
    simp only [palEntryBytes, palEntryOf, lane_toNat hy, lane_toNat hcb, lane_toNat hcr, opacity_val hop,
      List.append_assoc]
    rw [be2_u2_append_drop (i := i + 6) (by omega), be2_u2_append_drop (i := i + 4) (by omega),
      be2_u2_append_drop (i := i + 2) (by omega), be2_u2_append_drop (by omega)]
  exact hdrop ▸ (List.take_left' rfl).symm

theorem colourBytes_colourOf {p : List Byte} (hy : u2 p 0 ≤ 1023) (hcb : u2 p 2 ≤ 1023) (hcr : u2 p 4 ≤ 1023)
    (hlen : p.length = 6) : colourBytes (colourOf p) = p := by
  have hend : p.drop 6 = [] := List.drop_eq_nil_of_le (Nat.le_of_eq hlen)
  calc colourBytes (colourOf p)
      = be2 (u2 p 0) ++ (be2 (u2 p 2) ++ (be2 (u2 p 4) ++ p.drop 6)) := by
        simp only [colourBytes, colourOf, lane_toNat hy, lane_toNat hcb, lane_toNat hcr, hend, List.append_nil,
          List.append_assoc]
    _ = p.drop 0 := by
        rw [be2_u2_append_drop (i := 4) (by omega), be2_u2_append_drop (i := 2) (by omega),
          be2_u2_append_drop (by omega)]
    _ = p := List.drop_zero

/-! ## Codes in the window record, read and written (section 11.6) -/

theorem Depth.bits_ofNat? {n : Nat} (h : n = 1 ∨ n = 2 ∨ n = 4 ∨ n = 8) (default : Depth) :
    ((Depth.ofNat? n).getD default).bits = n := by
  obtain ⟨d, hd, hbits⟩ := Depth.ofNat?_of_bits h
  rw [hd, Option.getD_some, hbits]

theorem Scale.factor_ofNat? {n : Nat} (h : n = 1 ∨ n = 2 ∨ n = 4) (default : Scale) :
    ((Scale.ofNat? n).getD default).factor = n := by
  rcases h with rfl | rfl | rfl <;> rfl

theorem ShowCond.code_ofNat? {n : Nat} (h : n ≤ 2) (default : ShowCond) :
    ((ShowCond.ofNat? n).getD default).code = n := by
  match n, h with
  | 0, _ | 1, _ | 2, _ => rfl

theorem ShowCond.eq_iff_code_eq (c d : ShowCond) : c = d ↔ c.code = d.code := by
  cases c <;> cases d <;> decide

theorem segField_getD (n : Nat) : (segField n).getD 0 = n := by
  rw [segField]
  split
  · next h => exact h.symm
  · rfl

theorem boolByte_beq_one {n : Nat} (h : n ≤ 1) : boolByte (n == 1) = byte n := by
  match n, h with
  | 0, _ | 1, _ => rfl

/-! ## The window record (section 11.6) -/

section WindowRecord

variable {p : List Byte}

theorem windowOf_depth_bits (h : winStageFits p) : (windowOf p).depth.bits = u1 p 3 := by
  obtain ⟨-, -, hdepth, -⟩ := h
  exact Depth.bits_ofNat? hdepth .d8

theorem windowOf_scales (h : winStageFits p) :
    (windowOf p).hScale.factor = u1 p 12 ∧ (windowOf p).vScale.factor = u1 p 13 := by
  obtain ⟨-, -, -, -, -, -, -, hh, hv, -⟩ := h
  exact ⟨Scale.factor_ofNat? hh .x1, Scale.factor_ofNat? hv .x1⟩

theorem windowOf_palette_level_priority (h : winStageFits p) :
    (windowOf p).palette.val = u1 p 14 ∧ (windowOf p).level.val = u1 p 15 ∧ (windowOf p).priority.val = u1 p 16 := by
  obtain ⟨-, -, -, -, -, -, -, -, -, hpalette, hlevel, hpriority, -⟩ := h
  exact ⟨Nat.mod_eq_of_lt (Nat.lt_succ_of_le hpalette), Nat.mod_eq_of_lt (Nat.lt_succ_of_le hlevel),
    Nat.mod_eq_of_lt (Nat.lt_succ_of_le hpriority)⟩

theorem windowOf_cond_code (h : winStageFits p) : (windowOf p).cond.code = u1 p 19 := by
  obtain ⟨-, -, -, -, -, -, -, -, -, -, -, -, hcond, -⟩ := h
  exact ShowCond.code_ofNat? hcond .always

theorem windowOf_cond_eq_iff (h : winStageFits p) (c : ShowCond) : (windowOf p).cond = c ↔ u1 p 19 = c.code := by
  rw [ShowCond.eq_iff_code_eq, windowOf_cond_code h]

theorem windowOf_remap (h : winStageFits p) :
    (windowOf p).remap = if u1 p 3 = 8 then none else some ((p.drop 24).map BitVec.toNat) := by
  have hcount : (windowOf p).depth.remapCount = 0 ↔ u1 p 3 = 8 := by
    rw [Depth.remapCount_eq, windowOf_depth_bits h]
    split
    · next h8 => exact iff_of_true rfl h8
    · next h8 => exact iff_of_false (Nat.ne_of_gt (Nat.two_pow_pos _)) h8
  exact ite_congr (propext hcount) (fun _ => rfl) (fun _ => rfl)

/-- Depth 8 has no remap, and there the payload ends with its count (R39). -/
theorem windowOf_remap_getD (h : winStageFits p) (hlen : p.length = 24 + u2 p 22) :
    (windowOf p).remap.getD [] = (p.drop 24).map BitVec.toNat := by
  obtain ⟨-, -, -, -, -, -, -, -, -, -, -, -, -, -, -, hcount⟩ := id h
  rw [windowOf_remap h]
  split
  · next h8 =>
    have hend : p.length = 24 := by rw [hlen, hcount, if_pos h8]
    rw [List.drop_eq_nil_of_le (Nat.le_of_eq hend)]
    rfl
  · rfl

/-- The two key bytes are those read, where an absent key's value was sent as 0 (R39). -/
theorem windowOf_keyBytes (hpres : u1 p 20 ≤ 1) (habsent : u1 p 20 = 0 → u1 p 21 = 0) :
    boolByte (windowOf p).key.isSome = byte (u1 p 20) ∧ (windowOf p).key.getD 0 = u1 p 21 := by
  have hkey : (windowOf p).key = if u1 p 20 = 1 then some (u1 p 21) else none := rfl
  rcases Nat.le_one_iff_eq_zero_or_eq_one.mp hpres with h0 | h1
  · rw [hkey, h0, habsent h0]
    exact ⟨rfl, rfl⟩
  · rw [hkey, h1]
    exact ⟨rfl, rfl⟩

/-- Written out, a window record read from a payload is the payload's fields, each at its position. -/
theorem windowBytes_windowOf_fields (h : winStageFits p) (hlen : p.length = 24 + u2 p 22)
    (habsent : u1 p 20 = 0 → u1 p 21 = 0) :
    windowBytes (u1 p 0) (windowOf p) =
      [byte (u1 p 0), byte (u1 p 1), byte (u1 p 2), byte (u1 p 3)] ++ be2 (u2 p 4) ++ be2 (u2 p 6) ++ be2 (u2 p 8)
        ++ be2 (u2 p 10)
        ++ [byte (u1 p 12), byte (u1 p 13), byte (u1 p 14), byte (u1 p 15), byte (u1 p 16), byte (u1 p 17),
            byte (u1 p 18), byte (u1 p 19), byte (u1 p 20), byte (u1 p 21)]
        ++ be2 (u2 p 22) ++ p.drop 24 := by
  obtain ⟨-, hon, -, -, -, -, -, -, -, -, -, -, -, hpres, -⟩ := id h
  have henabled : boolByte (windowOf p).enabled = byte (u1 p 1) := boolByte_beq_one hon
  have hsegment : (windowOf p).segment.getD 0 = u1 p 2 := segField_getD _
  obtain ⟨hhScale, hvScale⟩ := windowOf_scales h
  obtain ⟨hpalette, hlevel, hpriority⟩ := windowOf_palette_level_priority h
  obtain ⟨hpresent, hvalue⟩ := windowOf_keyBytes hpres habsent
  have hcount : ((p.drop 24).map BitVec.toNat).length = u2 p 22 := by
    rw [List.length_map, List.length_drop, hlen, Nat.add_sub_cancel_left]
  rw [windowBytes, henabled, hsegment, windowOf_depth_bits h, hhScale, hvScale, hpalette, hlevel, hpriority,
    windowOf_cond_code h, hpresent, hvalue, windowOf_remap_getD h hlen, hcount, map_byte_toNat]
  rfl

/-- The fields joined from the last to the first, each to the rest of the payload that begins after it. -/
theorem windowBytes_windowOf (h : winStageFits p) (hlen : p.length = 24 + u2 p 22)
    (habsent : u1 p 20 = 0 → u1 p 21 = 0) : windowBytes (u1 p 0) (windowOf p) = p := by
  have hbyte {i : Nat} (hi : i < 24) : byte (u1 p i) :: p.drop (i + 1) = p.drop i := byte_u1_cons_drop (by omega)
  have hpair {i : Nat} (hi : i < 23) : be2 (u2 p i) ++ p.drop (i + 2) = p.drop i := be2_u2_append_drop (by omega)
  rw [windowBytes_windowOf_fields h hlen habsent]
  simp (disch := decide) only [List.append_assoc, List.cons_append, List.nil_append, hbyte, hpair, List.drop_zero]

end WindowRecord

/-- The codes of the show condition and of the key's presence are those of section 11.2. -/
theorem windowBytes_eq (i : Nat) (w : WindowRec) :
    windowBytes i w = [byte i, if w.enabled then 1 else 0, byte (w.segment.getD 0), byte w.depth.bits]
      ++ be2 w.srcWidth ++ be2 w.srcHeight ++ be2 w.originX ++ be2 w.originY
      ++ [byte w.hScale.factor, byte w.vScale.factor, byte w.palette.val, byte w.level.val, byte w.priority.val,
          byte w.blinkOn, byte w.blinkOff, byte w.cond.code, if w.key = none then 0 else 1, byte (w.key.getD 0)]
      ++ be2 (w.remap.getD []).length ++ (w.remap.getD []).map byte := by
  have hkey : boolByte w.key.isSome = if w.key = none then 0 else 1 := by
    cases w.key <;> rfl
  rw [windowBytes, hkey]
  rfl

/-- Settles O20: each field is read at its position and written there, so the parts of a payload written out join to
the payload again. -/
theorem recordLayouts : Obligations.RecordLayouts := by
  refine ⟨fun p i => ⟨fun b => u1_of_getElem?, by rw [u2, Nat.mul_comm], by rw [u4, Nat.mul_comm]⟩, ?_, ?_, ?_, ?_,
    fun _ => rfl, fun _ => rfl, fun p => windowBytes_windowOf,
    fun p i hlen hy hcb hcr hop => palEntryBytes_palEntryOf hy hcb hcr hop hlen,
    fun p hlen hy hcb hcr => colourBytes_colourOf hy hcb hcr hlen⟩
  · intro p h _ w
    obtain ⟨hhScale, hvScale⟩ := windowOf_scales h
    obtain ⟨hpalette, hlevel, hpriority⟩ := windowOf_palette_level_priority h
    exact ⟨beq_iff_eq, rfl, windowOf_depth_bits h, rfl, rfl, rfl, rfl, hhScale, hvScale, hpalette, hlevel, hpriority,
      rfl, rfl, windowOf_cond_eq_iff h .always, windowOf_cond_eq_iff h .signal, windowOf_cond_eq_iff h .noSignal, rfl,
      windowOf_remap h⟩
  · intro i w one cond entries
    have hcond : byte w.cond.code = cond := by
      cases h : w.cond <;> simp only [cond, h] <;> rfl
    rw [windowBytes_eq, hcond]
    rfl
  · exact fun p i hy hcb hcr hop => ⟨lane_toNat hy, lane_toNat hcb, lane_toNat hcr, opacity_val hop⟩
  · exact fun p hy hcb hcr => ⟨lane_toNat hy, lane_toNat hcb, lane_toNat hcr⟩

end Sys2Proof.Machine

namespace Sys2Proof.Machine

/-! ## The canonical form of the bitmap memory (R66) -/

theorem Memory.wf_iff (m : Memory) :
    m.wf = true ↔ m.Pairwise (fun c d => c.1 < d.1) ∧ ∀ c ∈ m, c.2 ≠ 0 := by
  induction m with
  | nil => simp [Memory.wf]
  | cons c cs ih =>
    rw [Memory.wf_cons, ih, List.pairwise_cons, List.forall_mem_cons]
    constructor
    · rintro ⟨hc, hrise, hrises, hcs⟩
      exact ⟨⟨hrise, hrises⟩, hc, hcs⟩
    · rintro ⟨⟨hrise, hrises⟩, hc, hcs⟩
      exact ⟨hc, hrise, hrises, hcs⟩

/-- Only a creation and a write that lands touch the memory; each is made of operations that keep the form. -/
theorem Store.Move.keeps_wf {a b : Store} (m : Store.Move a b) (h : a.mem.wf = true) : b.mem.wf = true := by
  cases m with
  | retag id f _ => exact h
  | queue q => exact h
  | free g _ => exact h
  | create id length _ _ => exact a.create_wf id length h
  | land id offset data => exact a.land_wf id offset data h
  | overlay => exact h
  | full => rwa [Store.fullReset_mem]

/-- The picture moves the memory by moves of the store, and by a hard reset, which empties it. -/
theorem Picture.Move.keeps_wf {c : Compositor} {cs : ChangeSet} {st : Store} {p : Picture}
    (m : Picture.Move c cs st p) (h : st.mem.wf = true) : p.store.mem.wf = true := by
  cases m with
  | store run => exact run.keeps (P := fun st => st.mem.wf = true) (fun _ _ => Store.Move.keeps_wf) h
  | hard => exact State.reset_wf
  | blink _ _ _ => exact h
  | stage _ _ _ => exact h
  | commit _ _ _ => exact h
  | discard => exact h
  | withdraw => exact h
  | apply _ _ _ => exact h
  | soft => exact h

/-- Settles O3: every move of the picture keeps the form, so every step does. -/
theorem memoryStaysCanonical : Obligations.MemoryStaysCanonical :=
  ⟨fun s => s.store.mem.wf_iff, fun _ _ hs hstep =>
    step_keeps (P := fun p => p.store.mem.wf = true) (fun _ _ _ _ => Picture.Move.keeps_wf) hstep hs⟩

end Sys2Proof.Machine

namespace Sys2Proof.Machine

/-! ## A step, by the queue of commands -/

theorem step_of_cons {c : Instr} {rest : List Instr} {s : State} (h : s.pending = c :: rest) :
    step s = exec c { s with pending := rest } := by
  rw [step, h]

theorem step_of_nil {s : State} (h : s.pending = []) : step s = .next s.settle := by
  rw [step, h]

/-- Settles O1, by the two cases of the queue; with no head open there is nothing to finish. -/
theorem stepRunsFrontCommand : Obligations.StepRunsFrontCommand := by
  refine ⟨fun _ _ _ => step_of_cons, fun _ => step_of_nil, fun s hpending hclosed => ?_⟩
  rw [step_of_nil hpending, s.settle_of_closed hclosed]

end Sys2Proof.Machine

namespace Sys2Proof.Machine

/-! ## The laws at reset

The directory, both sets and both queues are empty there, and every window is disabled and names no segment. -/

theorem Store.reset_blockLaw : Store.reset.blockLaw := by
  simp only [Store.blockLaw, Store.allBlocks, Store.reset, List.flatMap_nil, List.append_nil, List.Perm.refl]

theorem State.reset_pictureLaw : State.reset.pictureLaw = true :=
  State.reset.pictureLaw_iff_fits.mpr ⟨Compositor.reset_fits, nofun⟩

theorem State.reset_tableLaw : State.reset.tableLaw = true :=
  State.reset.tableLaw_iff_sized.mpr Compositor.reset_sized

theorem State.reset_setLaw : State.reset.setLaw = true :=
  State.reset.setLaw_iff_fits.mpr (ChangeSet.fits_of_scheduled_none rfl rfl)

theorem Compositor.reset_wins_unnamed : ∀ w ∈ Compositor.reset.wins, w.segment = none := by
  simp only [Compositor.wins, Compositor.reset, WinSlot.resetAll, List.map_map, List.mem_map]
  rintro _ ⟨i, _, rfl⟩
  rfl

/-- No window record names a segment, and no set has an edit. -/
theorem State.reset_namesLaw : State.reset.namesLaw = true := by
  rw [State.namesLaw, Bool.and_eq_true, List.all_eq_true]
  refine ⟨fun w hw => ?_, rfl⟩
  rw [Compositor.reset_wins_unnamed w hw]
  rfl

theorem exec_hardReset (strap : BitVec 5) (s : State) :
    exec (.hardReset strap) s = .next { State.afterHardReset strap with pending := s.pending } := rfl

/-- Settles O9: law by law, and the state that a HARD_RESET answers. -/
theorem resetHasTheLaws : Obligations.ResetHasTheLaws := by
  obtain ⟨hchannel, hexecuting, hqueue⟩ := State.reset.lawful_iff.mp (State.lawful_of_reset rfl rfl rfl rfl)
  refine ⟨State.reset_wf, Store.reset_blockLaw, rfl, State.reset_pictureLaw, State.reset_tableLaw, State.reset_setLaw,
    hchannel, hexecuting, hqueue, State.markLaw_of_none rfl rfl, rfl, State.reset_namesLaw, rfl,
    fun strap s t h => ?_⟩
  rw [exec_hardReset] at h
  obtain rfl := Host.Outcome.next.inj h
  exact ⟨rfl, rfl, rfl⟩

end Sys2Proof.Machine

namespace Sys2Proof.Machine

/-! ## The segment directory in ascending order of id (R68) -/

theorem idsRise_iff (dir : List Segment) : idsRise dir = true ↔ dir.Pairwise fun g h => g.id < h.id := by
  induction dir with
  | nil => simp [idsRise]
  | cons g gs ih => simp [idsRise, ih]

/-- A record changed in anything but its id leaves the ids as they rose. -/
theorem idsRise_map {dir : List Segment} {f : Segment → Segment} (hid : ∀ g, (f g).id = g.id)
    (h : idsRise dir = true) : idsRise (dir.map f) = true := by
  rw [idsRise_iff, List.pairwise_map]
  simpa only [hid] using (idsRise_iff dir).mp h

theorem idsRise_filter {dir : List Segment} (keep : Segment → Bool) (h : idsRise dir = true) :
    idsRise (dir.filter keep) = true :=
  (idsRise_iff _).mpr (((idsRise_iff dir).mp h).filter keep)

theorem insertSeg_perm (g : Segment) (dir : List Segment) : (insertSeg g dir).Perm (g :: dir) := by
  induction dir with
  | nil => exact .refl _
  | cons h hs ih =>
    unfold insertSeg
    split
    · exact .refl _
    · exact (ih.cons h).trans (.swap g h hs)

/-- A record whose id is new takes its place in the order. -/
theorem idsRise_insertSeg {g : Segment} {dir : List Segment} (hnew : ∀ h ∈ dir, h.id ≠ g.id)
    (h : idsRise dir = true) : idsRise (insertSeg g dir) = true := by
  rw [idsRise_iff] at h ⊢
  induction dir with
  | nil => exact List.pairwise_singleton _ g
  | cons d ds ih =>
    obtain ⟨hd, hds⟩ := List.pairwise_cons.mp h
    obtain ⟨hne, hnews⟩ := List.forall_mem_cons.mp hnew
    unfold insertSeg
    split
    · next hlt =>
      exact List.pairwise_cons.mpr ⟨List.forall_mem_cons.mpr ⟨hlt, fun e he => Nat.lt_trans hlt (hd e he)⟩, h⟩
    · next hge =>
      refine List.pairwise_cons.mpr ⟨fun e he => ?_, ih hnews hds⟩
      rcases List.mem_cons.mp ((insertSeg_perm g ds).mem_iff.mp he) with rfl | he
      · omega
      · exact hd e he

/-! ## The record of an id (R68, R90) -/

theorem Store.seg_eq_none_iff (st : Store) (id : Nat) : st.seg id = none ↔ ∀ g ∈ st.dir, g.id ≠ id := by
  simp [Store.seg, List.find?_eq_none]

theorem Store.eq_of_id_eq {st : Store} {g h : Segment} (hrise : idsRise st.dir = true) (hg : g ∈ st.dir)
    (hh : h ∈ st.dir) (hid : g.id = h.id) : g = h := by
  have hlt := List.pairwise_iff_getElem.mp ((idsRise_iff st.dir).mp hrise)
  obtain ⟨i, hi, rfl⟩ := List.getElem_of_mem hg
  obtain ⟨j, hj, rfl⟩ := List.getElem_of_mem hh
  rcases Nat.lt_trichotomy i j with hij | rfl | hij
  · exact absurd hid (Nat.ne_of_lt (hlt i j hi hj hij))
  · rfl
  · exact absurd hid.symm (Nat.ne_of_lt (hlt j i hj hi hij))

/-- In a directory whose ids rise, a record is found under its id. -/
theorem Store.seg_of_mem {st : Store} {g : Segment} (hrise : idsRise st.dir = true) (hg : g ∈ st.dir) :
    st.seg g.id = some g := by
  obtain ⟨r, hr⟩ := Option.ne_none_iff_exists'.mp fun hnone => (st.seg_eq_none_iff g.id).mp hnone g hg rfl
  rw [hr, Store.eq_of_id_eq hrise (Store.seg_mem hr) hg (Store.seg_id hr)]

/-- The record of an id, and the records of the other ids, are the directory. -/
theorem Store.dir_perm_of_seg {st : Store} {id : Nat} {g : Segment} (hrise : idsRise st.dir = true)
    (hg : st.seg id = some g) : st.dir.Perm (g :: st.dir.filter fun h => h.id != id) := by
  obtain ⟨hid, before, later, hdir, hbefore⟩ := List.find?_eq_some_iff_append.mp hg
  have hrises := (idsRise_iff st.dir).mp hrise
  rw [hdir, List.pairwise_append, List.pairwise_cons] at hrises
  obtain ⟨-, ⟨hbehind, -⟩, -⟩ := hrises
  have hlater : ∀ h ∈ later, (h.id != id) = true := fun h hh =>
    bne_iff_ne.mpr (eq_of_beq hid ▸ Nat.ne_of_gt (hbehind h hh))
  have hkept : (st.dir.filter fun h => h.id != id) = before ++ later := by
    rw [hdir, List.filter_append, List.filter_cons_of_neg (by simpa using hid),
      List.filter_eq_self.mpr fun h hh => by simpa using hbefore h hh, List.filter_eq_self.mpr hlater]
  rw [hkept, hdir]
  exact List.perm_middle

/-! ## The blocks of the memory (R66, R67) -/

/-- The block law and the order of the ids, which a free needs to remove one record alone: conserved together. -/
def Store.conserved (st : Store) : Prop := st.blockLaw ∧ idsRise st.dir = true

theorem flatMap_blocks_map {dir : List Segment} {f : Segment → Segment} (hf : ∀ g, (f g).blocks = g.blocks) :
    (dir.map f).flatMap (·.blocks) = dir.flatMap (·.blocks) := by
  simp only [List.flatMap_map, hf]

/-- A record changed in anything but its id and its blocks. -/
theorem Store.conserved_update {st : Store} {id : Nat} {f : Segment → Segment} (hid : ∀ g, (f g).id = g.id)
    (hf : ∀ g, (f g).blocks = g.blocks) (h : st.conserved) :
    (st.update id f).conserved := by
  obtain ⟨hblocks, hrise⟩ := h
  constructor
  · rw [Store.blockLaw, Store.allBlocks, Store.update_dir, flatMap_blocks_map]
    · exact hblocks
    · intro g
      split
      · exact hf g
      · rfl
  · refine idsRise_map (fun g => ?_) hrise
    split
    · exact hid g
    · rfl

/-- A segment freed gives its blocks back. -/
theorem Store.conserved_free {st : Store} {g : Segment} (hg : st.seg g.id = some g) (h : st.conserved) :
    (st.free g).conserved := by
  obtain ⟨hblocks, hrise⟩ := h
  refine ⟨List.Perm.trans ?_ hblocks, idsRise_filter _ hrise⟩
  simp only [Store.allBlocks, Store.free_freeList, Store.free_dir, List.append_assoc, ← List.flatMap_cons]
  exact ((Store.dir_perm_of_seg hrise hg).symm.flatMap_right _).append_left _

/-- A segment created takes its blocks from the free-block list. -/
theorem Store.conserved_create {st : Store} {id : Nat} (hnew : st.seg id = none) (length : Nat) (h : st.conserved) :
    (st.create id length).conserved := by
  obtain ⟨hblocks, hrise⟩ := h
  refine ⟨List.Perm.trans ?_ hblocks, ?_⟩
  · rw [Store.allBlocks, Store.allBlocks, Store.create_freeList, Store.create_dir]
    refine (((insertSeg_perm _ st.dir).flatMap_right _).append_left _).trans ?_
    rw [List.flatMap_cons, ← List.append_assoc]
    refine List.Perm.append_right _ (List.perm_append_comm.trans ?_)
    exact List.Perm.of_eq (List.take_append_drop _ _)
  · rw [Store.create_dir]
    exact idsRise_insertSeg ((st.seg_eq_none_iff id).mp hnew) hrise

/-- An OVERLAY reset frees the RETIRING segments and leaves the others their blocks. -/
theorem Store.conserved_overlayReset {st : Store} (h : st.conserved) : st.overlayReset.conserved := by
  obtain ⟨hblocks, hrise⟩ := h
  refine ⟨List.Perm.trans ?_ hblocks, idsRise_map (fun _ => rfl) (idsRise_filter _ hrise)⟩
  simp only [Store.allBlocks, Store.overlayReset, List.append_assoc, List.flatMap_map, ← List.flatMap_append]
  exact ((List.filter_append_perm (fun g : Segment => g.state == .retiring) st.dir).flatMap_right _).append_left _

theorem Store.conserved_fullReset (st : Store) : st.fullReset.conserved := by
  constructor
  · rw [Store.blockLaw, Store.allBlocks, Store.fullReset_freeList, Store.fullReset_dir, List.flatMap_nil,
      List.append_nil]
  · rw [Store.fullReset_dir, idsRise]

theorem Store.land_lists (st : Store) (id offset : Nat) (data : List Byte) :
    (st.land id offset data).freeList = st.freeList ∧ (st.land id offset data).dir = st.dir := by
  unfold Store.land
  split <;> exact ⟨rfl, rfl⟩

/-- Every move of the store conserves the blocks. -/
theorem Store.Move.conserved {a b : Store} (m : Store.Move a b) (h : a.conserved) : b.conserved := by
  cases m with
  | retag id f hf =>
    refine Store.conserved_update (fun g => ?_) (fun g => ?_) h
    all_goals
      obtain ⟨hid, _, hblocks⟩ := hf g
      assumption
  | queue q => exact h
  | free g hg => exact Store.conserved_free hg h
  | create id length hnew _ => exact Store.conserved_create hnew length h
  | land id offset data =>
    obtain ⟨hfree, hdir⟩ := a.land_lists id offset data
    rw [Store.conserved, Store.blockLaw, Store.allBlocks, hfree, hdir]
    exact h
  | overlay => exact Store.conserved_overlayReset h
  | full => exact a.conserved_fullReset

/-- The picture moves the blocks by moves of the store, and by a hard reset. -/
theorem Picture.Move.conserved {c : Compositor} {cs : ChangeSet} {st : Store} {p : Picture}
    (m : Picture.Move c cs st p) (h : st.conserved) : p.store.conserved := by
  cases m with
  | store run => exact run.keeps (fun _ _ => Store.Move.conserved) h
  | hard => exact ⟨Store.reset_blockLaw, rfl⟩
  | blink _ _ _ => exact h
  | stage _ _ _ => exact h
  | commit _ _ _ => exact h
  | discard => exact h
  | withdraw => exact h
  | apply _ _ _ => exact h
  | soft => exact h

/-- Settles O4: every move of the picture conserves the blocks and the order of ids, so every step does. -/
theorem blocksConserved : Obligations.BlocksConserved :=
  ⟨fun _ => Iff.rfl, idsRise_iff, fun _ _ hblocks hrise hstep =>
    step_keeps (P := fun p => p.store.conserved) (fun _ _ _ _ => Picture.Move.conserved) hstep ⟨hblocks, hrise⟩⟩

end Sys2Proof.Machine

namespace Sys2Proof.Machine

/-! ## A step as acts on the windows' records, the sets and the store

Said once: whatever the lock state and the line, a step is a course of the acts below, between which the window
records, the sets and the store do not change. Unlike the moves of a run, an act is a whole operation of the model, so
that a law that ties these blocks together is kept by each. -/

/-- The window records, the sets and the store are as they were. -/
structure State.Still (s t : State) : Prop where
  wins : t.comp.wins = s.comp.wins
  cset : t.cset = s.cset
  store : t.store = s.store

theorem State.Still.refl (s : State) : s.Still s := ⟨rfl, rfl, rfl⟩

theorem State.Still.trans {s t u : State} (h : s.Still t) (k : t.Still u) : s.Still u :=
  ⟨k.wins.trans h.wins, k.cset.trans h.cset, k.store.trans h.store⟩

/-- One act. `stores` says whether messages, write completions and hard resets are among the acts: only these change the
bitmap memory. -/
inductive State.Act (stores : Prop) (s : State) : State → Prop
  | still {t : State} (h : s.Still t) : State.Act stores s t
  | owner (h : stores) (k : Kind) (ch : Chan) (p : List Byte) : State.Act stores s (s.dispatch k ch p).1
  | applied (f : FrameNo) (set : Scheduled) (h : s.cset.scheduled = some set) : State.Act stores s (s.applySet f set)
  | reset (path : ResetPath) : State.Act stores s (s.resetEffect path)
  | written (h : stores) : State.Act stores s s.writeCompletion
  | verified : State.Act stores s s.verifyCompletion
  | hardReset (h : stores) (strap : BitVec 5) :
      State.Act stores s { State.afterHardReset strap with pending := s.pending }

/-- State `t` comes from `s` by acts one after the other. -/
inductive State.Acts (stores : Prop) : State → State → Prop
  | refl (s : State) : State.Acts stores s s
  | step {s t u : State} (h : State.Acts stores s t) (a : State.Act stores t u) : State.Acts stores s u

namespace State.Acts

variable {stores : Prop} {s t u : State}

theorem trans (h : s.Acts stores t) (k : t.Acts stores u) : s.Acts stores u := by
  induction k with
  | refl => exact h
  | step _ hact ih => exact .step ih hact

theorem act (h : s.Act stores t) : s.Acts stores t := .step (.refl s) h

theorem still (hwins : t.comp.wins = s.comp.wins) (hcset : t.cset = s.cset) (hstore : t.store = s.store) :
    s.Acts stores t :=
  act (.still ⟨hwins, hcset, hstore⟩)

/-- Acts from a state with the same window records, sets and store. -/
theorem after (k : t.Acts stores u) (hwins : t.comp.wins = s.comp.wins) (hcset : t.cset = s.cset)
    (hstore : t.store = s.store) : s.Acts stores u :=
  (still hwins hcset hstore).trans k

/-- Acts whose outcome is reported, or otherwise used, without a change to these blocks. -/
theorem before (h : s.Acts stores t) (hwins : u.comp.wins = t.comp.wins) (hcset : u.cset = t.cset)
    (hstore : u.store = t.store) : s.Acts stores u :=
  h.trans (still hwins hcset hstore)

/-- An event that occurs where its condition holds, and changes nothing elsewhere (log 4). -/
theorem ite {c : Prop} [Decidable c] (h : s.Acts stores t) : s.Acts stores (if c then t else s) := by
  split
  · exact h
  · exact refl s

theorem foldl {α : Type} {g : State → α → State} (h : ∀ (s : State) (a : α), s.Acts stores (g s a)) (l : List α)
    (s : State) : s.Acts stores (l.foldl g s) := by
  induction l generalizing s with
  | nil => exact refl s
  | cons a as ih => exact (h s a).trans (ih _)

/-- What every act keeps, a course of acts keeps. -/
theorem keeps {P : State → Prop} (hP : ∀ a b : State, a.Act stores b → P a → P b) (h : s.Acts stores t) (hs : P s) :
    P t := by
  induction h with
  | refl => exact hs
  | step _ hact ih => exact hP _ _ hact ih

end State.Acts

/-! ### A fragment -/

/-- The message that a fragment can complete on its channel: its own, or the one its channel is assembling. -/
def State.couldComplete (s : State) (f : Fragment) (kind : Byte) (p : List Byte) : Prop :=
  kind = f.kind ∧ p = f.payload ∨
    ∃ a, (s.chan f.ch).assembly = some a ∧ kind = a.kind ∧ p = (a.frags ++ [f.payload]).flatten

/-- The blocks of `t` are those that the owner of an accepted message makes of the blocks of `s`. -/
def State.Owned (s t : State) (ch : Chan) (kind : Byte) (p : List Byte) : Prop :=
  ∃ k v, Kind.ofCode? kind = some k ∧ k.lengthAllowed p = true ∧ s.Still v ∧ (v.dispatch k ch p).1.Still t

theorem State.Owned.after {s t u : State} {ch : Chan} {kind : Byte} {p : List Byte} (hs : s.Still t)
    (h : t.Owned u ch kind p) : s.Owned u ch kind p := by
  obtain ⟨k, v, hk, hlen, hv, hu⟩ := h
  exact ⟨k, v, hk, hlen, hs.trans hv, hu⟩

theorem State.Owned.acts {stores : Prop} {s t : State} {ch : Chan} {kind : Byte} {p : List Byte} (hstores : stores)
    (h : s.Owned t ch kind p) : s.Acts stores t := by
  obtain ⟨k, v, -, -, hv, ht⟩ := h
  exact (State.Acts.act (.still hv)).trans ((State.Acts.act (.owner hstores k ch p)).trans (.act (.still ht)))

theorem State.genericRefusal_length {s : State} {kind : Byte} {k : Kind} {ch : Chan} {p : List Byte}
    (h : s.genericRefusal kind ch p = none) (hk : Kind.ofCode? kind = some k) : k.lengthAllowed p = true := by
  unfold State.genericRefusal at h
  rw [hk] at h
  simp only [] at h
  split at h
  · cases h
  · split at h
    · cases h
    · next hlen => simpa using hlen

/-- A complete message changes these blocks only as its owner does. -/
theorem State.complete_still_or_owned (s : State) (ch : Chan) (seq : SeqNo) (kind : Byte) (p : List Byte) :
    s.Still (s.complete ch seq kind p) ∨ s.Owned (s.complete ch seq kind p) ch kind p := by
  unfold State.complete
  simp only []
  split
  · unfold State.judge
    split
    · split <;> exact .inl ⟨by simp, by simp, by simp⟩
    · next hok =>
      split
      · next k hk =>
        exact .inr ⟨k, s.accepting ch seq, hk, State.genericRefusal_length hok hk, ⟨rfl, rfl, rfl⟩,
          ⟨by simp [State.accepting], by simp [State.accepting], by simp [State.accepting]⟩⟩
      · exact .inl ⟨rfl, rfl, rfl⟩
  · exact .inl ⟨rfl, rfl, rfl⟩

theorem State.idleFragment_still_or_owned (s : State) (f : Fragment) :
    s.Still (s.idleFragment f) ∨ s.Owned (s.idleFragment f) f.ch f.kind f.payload := by
  unfold State.idleFragment
  simp only []
  split
  · exact .inl ⟨by simp, by simp, by simp⟩
  · split
    · split
      · split
        · exact s.complete_still_or_owned _ _ _ _
        · split <;> exact .inl ⟨by simp, by simp, by simp⟩
      · exact .inl (.refl s)
    · exact .inl ⟨by simp, by simp, by simp⟩

/-- A fragment changes these blocks only where it completes a message, and then as the message's owner does. -/
theorem State.fragment_still_or_owned (s : State) (f : Fragment) :
    s.Still (s.fragment f) ∨ ∃ kind p, s.couldComplete f kind p ∧ s.Owned (s.fragment f) f.ch kind p := by
  have own {t : State} (h : s.Still t ∨ s.Owned t f.ch f.kind f.payload) :
      s.Still t ∨ ∃ kind p, s.couldComplete f kind p ∧ s.Owned t f.ch kind p :=
    h.imp_right fun h => ⟨_, _, .inl ⟨rfl, rfl⟩, h⟩
  unfold State.fragment
  split
  · exact .inl ⟨by simp, by simp, by simp⟩
  · split
    · next a _ ha =>
      unfold State.assemblingFragment
      split
      · split
        · split
          · exact .inl ⟨by simp, by simp, by simp⟩
          · split
            · exact (s.complete_still_or_owned _ _ _ _).imp_right fun h => ⟨_, _, .inr ⟨a, ha, rfl, rfl⟩, h⟩
            · exact .inl ⟨rfl, rfl, rfl⟩
        · split <;> exact .inl ⟨by simp, by simp, by simp⟩
      · have dropped : s.Still (s.dropAssembly f.ch) := ⟨rfl, rfl, rfl⟩
        exact own (((s.dropAssembly f.ch).idleFragment_still_or_owned f).imp dropped.trans (.after dropped))
    · exact .inl ⟨by simp, by simp, by simp⟩
    · exact .inl ⟨by simp, by simp, by simp⟩
    · exact own (s.idleFragment_still_or_owned f)

section Walk

variable {stores : Prop}

theorem State.fragment_acts (hstores : stores) (s : State) (f : Fragment) : s.Acts stores (s.fragment f) := by
  rcases s.fragment_still_or_owned f with h | ⟨kind, p, -, h⟩
  · exact .act (.still h)
  · exact h.acts hstores

theorem State.handOn_acts (hstores : stores) (s : State) (f : Option Fragment) : s.Acts stores (s.handOn f) := by
  cases f with
  | none => exact .refl s
  | some f => exact s.fragment_acts hstores f

theorem State.receive_acts (hstores : stores) (s : State) (k : Kind) (ch : Chan) (seq : SeqNo) (p : List Byte) :
    s.Acts stores (s.receive k ch seq p) := by
  unfold State.receive
  exact .ite (.foldl (fun s f => s.fragment_acts hstores f) _ s)

/-! ### An open head -/

theorem State.applyDue_acts (s : State) : s.Acts stores s.applyDue := by
  unfold State.applyDue
  split
  · next f set h => exact .act (.applied f set (State.dueSet_scheduled h))
  · exact .refl s

theorem State.settle_acts (s : State) : s.Acts stores s.settle := by
  unfold State.settle
  split
  · exact s.applyDue_acts.before (by simp) (by simp) (by simp)
  · exact .refl s

/-! ### Lock states -/

theorem State.resetAtNoSignal_acts (s : State) : s.Acts stores s.resetAtNoSignal := by
  unfold State.resetAtNoSignal
  split
  · exact .after (.act (.reset .noSignal)) rfl rfl rfl
  · exact .refl s

theorem State.reportLock_acts (s : State) (a b : LockState) (c : LockCause) : s.Acts stores (s.reportLock a b c) :=
  .still (by simp) (by simp) (by simp)

theorem State.enterNoSignal_acts (s : State) (cause : LockCause) : s.Acts stores (s.enterNoSignal cause) := by
  unfold State.enterNoSignal
  simp only []
  refine State.Acts.trans ?_ ((State.resetAtNoSignal_acts _).trans (State.reportLock_acts _ _ _ _))
  exact .still (Compositor.hideAll_wins _) rfl rfl

theorem State.enter_acts (s : State) (t : Timing) (cause : LockCause) : s.Acts stores (s.enter t cause) :=
  .after (State.reportLock_acts _ _ _ _) rfl rfl rfl

theorem State.leaveLocked_acts (s : State) (cause : LockCause) (g : Option Generator) :
    s.Acts stores (s.leaveLocked cause g) := by
  unfold State.leaveLocked
  split
  · exact s.enterNoSignal_acts cause
  · exact .after (State.enter_acts _ _ _) rfl rfl rfl

theorem State.leaveRejoining_acts (s : State) : s.Acts stores s.leaveRejoining := by
  unfold State.leaveRejoining
  split
  · exact s.enterNoSignal_acts _
  · exact .after (State.enter_acts _ _ _) rfl rfl rfl

theorem State.absence_acts (s : State) : s.Acts stores s.absence := by
  unfold State.absence
  split
  · exact s.enterNoSignal_acts _
  · exact s.leaveLocked_acts _ _
  · exact s.leaveRejoining_acts
  · exact .refl s
  · exact .refl s

theorem State.assess_acts (s : State) (shape : Option FrameShape) : s.Acts stores (s.assess shape) := by
  unfold State.assess
  simp only []
  split
  · exact .after (State.enter_acts _ _ _) rfl rfl rfl
  · exact .still rfl rfl rfl

theorem State.judgeLocked_acts (s : State) (shape : Option FrameShape) : s.Acts stores (s.judgeLocked shape) := by
  unfold State.judgeLocked
  split
  · exact .still rfl rfl rfl
  · simp only []
    split
    · exact .after (State.leaveLocked_acts _ _ _) rfl rfl rfl
    · exact .still rfl rfl rfl

theorem State.judgeFrame_acts (s : State) (shape : Option FrameShape) : s.Acts stores (s.judgeFrame shape) := by
  unfold State.judgeFrame
  split
  · exact s.assess_acts shape
  · exact s.assess_acts shape
  · exact s.judgeLocked_acts shape
  · exact .refl s
  · exact .refl s

/-! ### Lines -/

/-- The one act of a free line is the reset that the emission of a marked entry brings (R188). -/
theorem State.emitFree_acts (s : State) (width : Nat) (source : LineSource) (offset : Option Nat) :
    s.Acts stores (s.emitFree width source offset) := by
  have fixed : s.Acts stores (s.fixFree width).1 := by
    unfold State.fixFree
    split
    · exact .refl s
    · split
      · simp only []
        split
        · exact .after (.act (.reset .emission)) rfl rfl rfl
        · exact .still rfl rfl rfl
      · exact .refl s
  exact fixed.before rfl rfl rfl

/-- A head decides what is shown, and leaves the records (R16, R18, R19). -/
theorem State.atOutputHead_acts (s : State) (f : FrameNo) : s.Acts stores (s.atOutputHead f) :=
  .still (Compositor.atHead_wins _ _) rfl rfl

theorem State.relayManaged_acts (s : State) (d : Disposition) (outside : Bool) (data : List DataWord) :
    s.Acts stores (s.relayManaged d outside data) := by
  unfold State.relayManaged
  split
  · exact s.emitFree_acts _ _ _
  · exact s.emitFree_acts _ _ _
  all_goals exact .still rfl rfl rfl

theorem State.relay_acts (s : State) (fr : InFrame) (data : List DataWord) : s.Acts stores (s.relay fr data).1 := by
  unfold State.relay
  split
  · exact .after (State.atOutputHead_acts _ _) rfl rfl rfl
  · unfold State.relayBlank
    split
    · exact .after (State.relayManaged_acts (s.flagPacket (packetStream data)) _ _ _) (by simp) (by simp) (by simp)
    · exact .still rfl rfl rfl
  · unfold State.relayActive
    split
    · exact .still rfl rfl rfl
    · simp only []
      split <;> exact .still rfl rfl rfl
  · exact .still rfl rfl rfl

theorem State.completeLine_acts (s : State) (data : List DataWord) : s.Acts stores (s.completeLine data).1 := by
  unfold State.completeLine
  split
  · exact .refl s
  · simp only []
    split
    · exact .after (State.relay_acts _ _ _) rfl rfl rfl
    · exact .after (State.relay_acts _ _ _) rfl rfl rfl
    · unfold State.examineOnly
      split <;> exact .still (by simp) (by simp) (by simp)
    · exact .refl s
    · exact .refl s

theorem State.openLine_acts (s : State) (w : Lane) (n : Nat) : s.Acts stores (s.openLine w n) := by
  unfold State.openLine
  split
  · exact .refl s
  · split
    · simp only []
      split
      · exact (s.judgeFrame_acts none).before rfl rfl rfl
      · exact s.judgeFrame_acts none
    · exact .still rfl rfl rfl

theorem State.beginFrame_acts (s : State) : s.Acts stores s.beginFrame := .still rfl rfl rfl

theorem State.takeHead_acts (s : State) (n : Nat) : s.Acts stores (s.takeHead n) := by
  unfold State.takeHead
  split
  · exact (s.judgeFrame_acts _).trans (State.beginFrame_acts _)
  · exact s.beginFrame_acts

theorem State.frameHeadFollowed_acts (hstores : stores) (s : State) (data : List DataWord) (n : Nat)
    (headFirst : Bool) : s.Acts stores (s.frameHeadFollowed data n headFirst) := by
  unfold State.frameHeadFollowed
  split
  · refine (s.judgeFrame_acts (s.endedShape data n)).trans ((State.completeLine_acts _ data).trans ?_)
    cases headFirst with
    | true => exact (State.beginFrame_acts _).trans (State.handOn_acts hstores _ _)
    | false => exact (State.handOn_acts hstores _ _).trans (State.beginFrame_acts _)
  · unfold State.frameHeadJudging
    simp only []
    refine (s.completeLine_acts data).trans ((State.settle_acts _).trans ?_)
    split
    · exact (State.takeHead_acts _ _).trans (State.handOn_acts hstores _ _)
    · exact (State.handOn_acts hstores _ _).trans (State.takeHead_acts _ _)

theorem State.frameHeadMarker_acts (hstores : stores) (s : State) (data : List DataWord) (n : Nat)
    (headFirst : Bool) : s.Acts stores (s.frameHeadMarker data n headFirst) := by
  unfold State.frameHeadMarker
  split
  · exact (s.enter_acts _ _).trans (State.beginFrame_acts _)
  · exact (s.enter_acts _ _).trans (State.beginFrame_acts _)
  all_goals exact s.frameHeadFollowed_acts hstores data n headFirst

theorem State.marker_acts (hstores : stores) (s : State) (w : Lane) (data : List DataWord) (n : Nat) :
    s.Acts stores (s.marker w data n) := by
  have followed : s.Acts stores (s.markerFollowed w data n) :=
    (s.completeLine_acts data).trans ((State.handOn_acts hstores _ _).trans (State.openLine_acts _ _ _))
  unfold State.marker
  split
  · exact s.frameHeadMarker_acts hstores _ _ _
  · split
    · exact .refl s
    · exact .refl s
    all_goals exact followed

/-! ### The generator -/

theorem State.generatorHead_acts (s : State) : s.Acts stores s.generatorHead := by
  unfold State.generatorHead
  simp only []
  split
  · exact .after (State.enterNoSignal_acts _ _) rfl rfl rfl
  · split
    · exact .after (State.atOutputHead_acts _ _) rfl rfl rfl
    · exact .still rfl rfl rfl

theorem State.generatorLine_acts (s : State) (g : Generator) : s.Acts stores (s.generatorLine g) := by
  unfold State.generatorLine
  simp only []
  split
  · split
    · exact .after (State.emitFree_acts _ _ _ _) rfl rfl rfl
    · exact .still rfl rfl rfl
  all_goals exact .still rfl rfl rfl

theorem State.generatorBegin_acts (s : State) : s.Acts stores s.generatorBegin := by
  unfold State.generatorBegin
  split
  · exact .refl s
  · split
    · exact .ite s.generatorHead_acts
    · exact s.generatorLine_acts _

/-! ### Commands -/

theorem State.resetEvent_acts (s : State) (width : Nat) : s.Acts stores (s.resetEvent width) := by
  unfold State.resetEvent
  split
  · exact s.resetAtNoSignal_acts
  · exact .ite (s.emitFree_acts _ _ _)

/-- The events of the reference clock, an output frame head, a free line and the store, but for a write's completion:
they bring no message and store nothing. -/
def storesNothing : Instr → Prop
  | .absenceExpiry _ | .generatorLineBegin | .holdoverLimitReached | .setApplication | .assemblyTimeout
  | .responseEmission _ | .verifyCompletion | .partResetEffect _ => True
  | _ => False

theorem State.event_acts {i : Instr} (hi : storesNothing i) (s : State) : s.Acts stores (s.after i) := by
  cases i with
  | absenceExpiry n => exact s.settle_acts.trans (.ite (State.absence_acts _))
  | generatorLineBegin => exact s.settle_acts.trans (State.generatorBegin_acts _)
  | holdoverLimitReached => exact s.settle_acts.trans (.ite (State.generatorHead_acts _))
  | setApplication => exact s.applyDue_acts
  | assemblyTimeout => exact s.settle_acts
  | responseEmission width => exact s.settle_acts.trans (.ite (State.emitFree_acts _ _ _ _))
  | verifyCompletion => exact s.settle_acts.trans (.act .verified)
  | partResetEffect width => exact s.settle_acts.trans (State.resetEvent_acts _ _)
  | _ => exact hi.elim

/-- Every command is a course of acts. -/
theorem after_acts (i : Instr) (s : State) : s.Acts True (s.after i) := by
  cases i with
  | hardReset strap => exact .act (.hardReset trivial strap)
  | lineMarker w data n => exact s.settle_acts.trans (State.marker_acts trivial _ _ _ _)
  | inputFrameHead data n headFirst => exact s.settle_acts.trans (State.frameHeadMarker_acts trivial _ _ _ _)
  | segWriteCompletion => exact s.settle_acts.trans (.act (.written trivial))
  | absenceExpiry | generatorLineBegin | holdoverLimitReached | setApplication | assemblyTimeout
  | responseEmission | verifyCompletion | partResetEffect => exact State.event_acts (by trivial) s
  | _ => exact s.settle_acts.trans (State.receive_acts trivial _ _ _ _ _)

/-- Every step is a course of acts. -/
theorem step_acts {s t : State} (h : step s = .next t) : s.Acts True t := by
  unfold step at h
  split at h
  · cases h
    exact s.settle_acts
  · next c rest _ =>
    rw [exec_next] at h
    cases h
    exact .after (after_acts c _) rfl rfl rfl

end Walk

end Sys2Proof.Machine

namespace Sys2Proof.Machine

/-! ## The laws of the access queue, the names and the counts, in numbers (R68 to R70, R73, R79) -/

theorem StoreOp.isVerify_and_seg_iff (op : StoreOp) (id : Nat) :
    op.isVerify = true ∧ op.seg = id ↔ ∃ ch check, op = .verify id ch check := by
  cases op with
  | write => simp [StoreOp.isVerify]
  | verify j ch check =>
    constructor
    · rintro ⟨-, rfl⟩
      exact ⟨ch, check, rfl⟩
    · rintro ⟨_, _, h⟩
      cases h
      exact ⟨rfl, rfl⟩

/-- What stands behind an operation where it stands last if it is a verify (R79). -/
theorem StoreOp.last_iff (op later : StoreOp) : (op.isVerify = true → later.seg ≠ op.seg) ↔
    ∀ id ch check, op = .verify id ch check → later.seg ≠ id := by
  constructor
  · rintro h id ch check rfl
    exact h rfl
  · intro h hop
    obtain ⟨ch, check, hop⟩ := (op.isVerify_and_seg_iff op.seg).mp ⟨hop, rfl⟩
    exact h _ ch check hop

theorem verifyLast_iff (ops : List StoreOp) :
    verifyLast ops = true ↔ ops.Pairwise fun op later => op.isVerify = true → later.seg ≠ op.seg := by
  induction ops with
  | nil => simp [verifyLast]
  | cons op ops ih =>
    rw [verifyLast, Bool.and_eq_true, ih, List.pairwise_cons]
    cases op.isVerify <;> simp

theorem SegState.waits_iff (state : SegState) (queued : Nat) :
    (state == .loading || state == .verifying || queued == 0) = true ↔
      (state = .ready ∨ state = .retiring → queued = 0) := by
  cases state <;> simp

theorem Store.opLaw_iff (st : Store) : st.opLaw = true ↔
    (∀ g ∈ st.dir, g.queued = (st.queue.filter fun op => op.seg = g.id).length ∧
      (g.state = .verifying ↔ ∃ ch check, .verify g.id ch check ∈ st.queue) ∧
      (g.state = .ready ∨ g.state = .retiring → g.queued = 0)) ∧
    (∀ op ∈ st.queue, st.seg op.seg ≠ none) ∧
    st.queue.Pairwise fun op later => ∀ id ch check, op = .verify id ch check → later.seg ≠ id := by
  have hverify (id : Nat) : (st.queue.any fun op => op.isVerify && op.seg == id) = true ↔
      ∃ ch check, .verify id ch check ∈ st.queue := by
    simp only [List.any_eq_true, Bool.and_eq_true, beq_iff_eq, StoreOp.isVerify_and_seg_iff]
    constructor
    · rintro ⟨_, hop, ch, check, rfl⟩
      exact ⟨ch, check, hop⟩
    · rintro ⟨ch, check, hop⟩
      exact ⟨_, hop, ch, check, rfl⟩
  have hrecord (g : Segment) :
      ((g.state == .verifying) == st.queue.any fun op => op.isVerify && op.seg == g.id) = true ↔
        (g.state = .verifying ↔ ∃ ch check, .verify g.id ch check ∈ st.queue) := by
    rw [beq_iff_eq, Bool.eq_iff_iff, beq_iff_eq, hverify]
  rw [Store.opLaw, Bool.and_eq_true, Bool.and_eq_true, verifyLast_iff, List.all_eq_true, List.all_eq_true, and_assoc]
  simp only [Bool.and_eq_true, hrecord, beq_iff_eq, SegState.waits_iff, StoreOp.last_iff, and_assoc, Option.isSome_iff_ne_none]
  rfl

/-- An edit that names a segment stands in one of the two sets. -/
theorem State.mem_allEdits_iff (s : State) (e : Edit) :
    e ∈ s.allEdits ↔ e ∈ s.cset.openSet ∨ ∃ set, s.cset.scheduled = some set ∧ e ∈ set.edits := by
  cases h : s.cset.scheduled <;> simp [State.allEdits, h]

theorem Store.namesReady_iff (st : Store) (edits : List Edit) : st.namesReady edits = true ↔
    ∀ i w id, .winStage i w ∈ edits → w.segment = some id → ∃ g, st.seg id = some g ∧ g.state = .ready := by
  rw [Store.namesReady, List.all_eq_true]
  constructor
  · intro h i w id he hid
    simpa [hid, Option.any_eq_true] using h _ he
  · intro h e he
    cases e with
    | winStage i w =>
      cases hseg : w.segment with
      | none => simp [hseg]
      | some id => simpa [hseg, Option.any_eq_true] using h i w id he hseg
    | _ => rfl

theorem State.namesLaw_iff (s : State) : s.namesLaw = true ↔
    (∀ w ∈ s.comp.wins, ∀ id, w.segment = some id →
      ∃ g, s.store.seg id = some g ∧ (g.state = .ready ∨ g.state = .retiring)) ∧
    ∀ i w id, (.winStage i w ∈ s.cset.openSet ∨ ∃ set, s.cset.scheduled = some set ∧ .winStage i w ∈ set.edits) →
      w.segment = some id → ∃ g, s.store.seg id = some g ∧ g.state = .ready := by
  rw [State.namesLaw, Bool.and_eq_true, Store.namesReady_iff]
  simp only [← State.mem_allEdits_iff, List.all_eq_true, Option.all_eq_true, Option.any_eq_true, Bool.or_eq_true,
    beq_iff_eq]

/-- The edits of the scheduled set, none where none is scheduled. -/
def ChangeSet.scheduledEdits (cs : ChangeSet) : List Edit :=
  match cs.scheduled with
  | some set => set.edits
  | none => []

theorem State.namesOf_allEdits (s : State) (id : Nat) :
    namesOf s.allEdits id = namesOf s.cset.openSet id + namesOf s.cset.scheduledEdits id := by
  rw [State.allEdits, namesOf_append]
  cases h : s.cset.scheduled <;> simp [ChangeSet.scheduledEdits, h]

theorem State.countLaw_iff (s : State) : s.countLaw = true ↔ ∀ g ∈ s.store.dir,
    g.active = (s.comp.wins.filter fun w => w.segment = some g.id).length ∧
    g.staged = namesOf s.cset.openSet g.id + namesOf s.cset.scheduledEdits g.id ∧
    (g.state = .retiring → g.staged = 0 ∧ g.active ≠ 0) ∧ g.blocks.length = (g.length + 511) / 512 := by
  have hretiring (g : Segment) : (g.state != .retiring || (g.staged == 0 && g.active != 0)) = true ↔
      (g.state = .retiring → g.staged = 0 ∧ g.active ≠ 0) := by
    cases g.state <;> simp
  have hshown (id : Nat) : (s.comp.wins.filter fun w => w.segment == some id) =
      s.comp.wins.filter fun w => w.segment = some id := by
    simp only [Bool.beq_eq_decide_eq]
  rw [State.countLaw, List.all_eq_true]
  simp only [Bool.and_eq_true, hretiring, hshown, ← State.namesOf_allEdits, and_assoc, beq_iff_eq]
  rfl
end Sys2Proof.Machine

namespace Sys2Proof.Machine

/-! ## What uses a segment, and the record that counts it (R68 to R70)

The four laws of the directory said once, record by record: a record's counts are the numbers of its uses, and its
state is one in which a segment can have these uses. -/

/-- The uses of a segment: the operations queued for it, the windows that name it, the edits that name it. -/
structure Uses where
  ops : List StoreOp
  shows : Nat
  claims : Nat

/-- No use. -/
def Uses.none : Uses := { ops := [], shows := 0, claims := 0 }

/-- The uses of the segment with an id, by an access queue, the segments that the windows name, and the edits. -/
def usesOf (queue : List StoreOp) (named : List (Option Nat)) (edits : List Edit) (id : Nat) : Uses :=
  { ops := queue.filter fun op => op.seg = id, shows := named.count (some id), claims := namesOf edits id }

/-- The uses that a segment can have in each state of its lifecycle. -/
def SegState.allows (state : SegState) (u : Uses) : Prop :=
  match state with
  | .loading => u.shows = 0 ∧ u.claims = 0 ∧ ∀ op ∈ u.ops, op.isVerify = false
  | .verifying => u.shows = 0 ∧ u.claims = 0 ∧
      ∃ writes check, u.ops = writes ++ [check] ∧ check.isVerify = true ∧ ∀ op ∈ writes, op.isVerify = false
  | .ready => u.ops = []
  | .retiring => u.ops = [] ∧ u.claims = 0 ∧ u.shows ≠ 0

/-- A record counts its uses, and its state allows them. -/
structure Segment.Exact (g : Segment) (u : Uses) : Prop where
  queued : g.queued = u.ops.length
  active : g.active = u.shows
  staged : g.staged = u.claims
  allowed : g.state.allows u
  blocks : g.blocks.length = blocksFor g.length

/-- The records of a directory are exact, and every id that is used is that of a record. -/
structure DirExact (dir : List Segment) (uses : Nat → Uses) : Prop where
  rise : idsRise dir = true
  records : ∀ g ∈ dir, g.Exact (uses g.id)
  known : ∀ id, uses id ≠ .none → ∃ g ∈ dir, g.id = id

/-- The uses of the segment with an id. -/
def State.uses (s : State) : Nat → Uses := usesOf s.store.queue (s.comp.wins.map (·.segment)) s.allEdits

/-- The directory of a state is exact. -/
def State.Exact (s : State) : Prop := DirExact s.store.dir s.uses

/-! ### The laws, and the exact directory -/

/-- One verify, at the end, is what the laws say of the operations of a VERIFYING segment. -/
theorem verify_at_end_iff (ops : List StoreOp) :
    (∃ op ∈ ops, op.isVerify = true) ∧ ops.Pairwise (fun op _ => op.isVerify = false) ↔
      ∃ writes check, ops = writes ++ [check] ∧ check.isVerify = true ∧ ∀ op ∈ writes, op.isVerify = false := by
  constructor
  · rintro ⟨⟨check, hmem, hcheck⟩, hpair⟩
    obtain ⟨writes, later, rfl⟩ := List.append_of_mem hmem
    rw [List.pairwise_append, List.pairwise_cons] at hpair
    obtain ⟨-, ⟨hlater, -⟩, hwrites⟩ := hpair
    cases later with
    | nil => exact ⟨writes, check, rfl, hcheck, fun op hop => hwrites op hop check (List.mem_singleton.mpr rfl)⟩
    | cons op ops => simp [hlater op] at hcheck
  · rintro ⟨writes, check, rfl, hcheck, hwrites⟩
    refine ⟨⟨check, by simp, hcheck⟩, ?_⟩
    rw [List.pairwise_append]
    exact ⟨(List.pairwise_of_forall_mem_list fun a ha b _ => hwrites a ha), List.pairwise_singleton _ _,
      fun a ha _ _ => hwrites a ha⟩

/-- What the laws say of a record's state is that it allows the record's uses. -/
theorem SegState.allows_iff (state : SegState) (u : Uses) : state.allows u ↔
    (state = .verifying ↔ ∃ op ∈ u.ops, op.isVerify = true) ∧
    (state = .ready ∨ state = .retiring → u.ops = []) ∧ u.ops.Pairwise (fun op _ => op.isVerify = false) ∧
    (u.shows ≠ 0 → state = .ready ∨ state = .retiring) ∧ (u.claims ≠ 0 → state = .ready) ∧
    (state = .retiring → u.claims = 0 ∧ u.shows ≠ 0) := by
  have hpair (h : ∀ op ∈ u.ops, op.isVerify = false) : u.ops.Pairwise fun op _ => op.isVerify = false :=
    List.pairwise_of_forall_mem_list fun op hop _ _ => h op hop
  have hnone (h : u.ops = []) : ∀ op ∈ u.ops, op.isVerify = false := by simp [h]
  cases state with
  | loading =>
    simp only [SegState.allows, reduceCtorEq, false_iff, not_exists, not_and, Bool.not_eq_true, or_self,
      false_implies, ne_eq, imp_false, Classical.not_not, and_true, true_and]
    grind
  | verifying =>
    simp only [SegState.allows, ← verify_at_end_iff, true_iff, reduceCtorEq, or_self, false_implies, ne_eq,
      imp_false, Classical.not_not, and_true, true_and]
    grind
  | ready =>
    simp only [SegState.allows, reduceCtorEq, false_iff, not_exists, not_and, Bool.not_eq_true, or_false,
      forall_const, ne_eq, implies_true, false_implies, and_self, and_true]
    grind
  | retiring =>
    simp only [SegState.allows, ne_eq, reduceCtorEq, false_iff, not_exists, not_and, Bool.not_eq_true, or_true,
      forall_const, implies_true, imp_false, Classical.not_not, and_self_left, true_and]
    grind

theorem usesOf_ne_none_iff {queue : List StoreOp} {named : List (Option Nat)} {edits : List Edit} {id : Nat} :
    usesOf queue named edits id ≠ .none ↔
      (∃ op ∈ queue, op.seg = id) ∨ some id ∈ named ∨ ∃ e ∈ edits, namesSeg id e = true := by
  simp only [usesOf, Uses.none, namesOf, ne_eq, Uses.mk.injEq, List.filter_eq_nil_iff, List.count_eq_zero,
    List.length_eq_zero_iff, decide_eq_true_eq]
  grind

/-- No operation stands behind a verify of its segment where, segment by segment, a verify stands last. -/
theorem pairwise_seg_iff (queue : List StoreOp) :
    (queue.Pairwise fun op later => ∀ id ch check, op = .verify id ch check → later.seg ≠ id) ↔
      ∀ id, (queue.filter fun op => op.seg = id).Pairwise fun op _ => op.isVerify = false := by
  simp only [← StoreOp.last_iff, List.pairwise_filter, decide_eq_true_eq]
  constructor
  · refine fun h id => h.imp fun {op later} hlast hop hlater => ?_
    exact Bool.eq_false_iff.mpr fun hverify => hlast hverify (hlater.trans hop.symm)
  · intro h
    rw [List.pairwise_iff_getElem]
    intro i j hi hj hij hverify hseg
    exact Bool.eq_false_iff.mp (List.pairwise_iff_getElem.mp (h queue[i].seg) i j hi hj hij rfl hseg) hverify

theorem usesOf_verify_iff (queue : List StoreOp) (named : List (Option Nat)) (edits : List Edit) (id : Nat) :
    (∃ op ∈ (usesOf queue named edits id).ops, op.isVerify = true) ↔ ∃ ch check, .verify id ch check ∈ queue := by
  simp only [usesOf, List.mem_filter, decide_eq_true_eq]
  constructor
  · rintro ⟨op, ⟨hop, hid⟩, hverify⟩
    obtain ⟨ch, check, rfl⟩ := (op.isVerify_and_seg_iff id).mp ⟨hverify, hid⟩
    exact ⟨ch, check, hop⟩
  · rintro ⟨ch, check, hop⟩
    exact ⟨_, ⟨hop, rfl⟩, rfl⟩

theorem State.uses_shows (s : State) (id : Nat) :
    (s.uses id).shows = (s.comp.wins.filter fun w => w.segment = some id).length := by
  simp only [State.uses, usesOf, List.count_eq_countP, List.countP_map, ← List.countP_eq_length_filter]
  simp only [Function.comp_def, Bool.beq_eq_decide_eq]

theorem State.uses_shows_ne_zero_iff (s : State) (id : Nat) :
    (s.uses id).shows ≠ 0 ↔ ∃ w ∈ s.comp.wins, w.segment = some id := by
  simp [State.uses, usesOf, List.count_eq_zero]

theorem namesOf_ne_zero_iff (edits : List Edit) (id : Nat) :
    namesOf edits id ≠ 0 ↔ ∃ i w, .winStage i w ∈ edits ∧ w.segment = some id := by
  simp only [namesOf, ne_eq, List.length_eq_zero_iff, List.filter_eq_nil_iff, Classical.not_forall, Classical.not_not, exists_prop,
    namesSeg_iff]
  constructor
  · rintro ⟨_, he, i, w, rfl, hid⟩
    exact ⟨i, w, he, hid⟩
  · rintro ⟨i, w, he, hid⟩
    exact ⟨_, he, i, w, rfl, hid⟩

theorem State.uses_claims_ne_zero_iff (s : State) (id : Nat) : (s.uses id).claims ≠ 0 ↔
    ∃ i w, (.winStage i w ∈ s.cset.openSet ∨ ∃ set, s.cset.scheduled = some set ∧ .winStage i w ∈ set.edits) ∧
      w.segment = some id := by
  simp only [State.uses, usesOf, namesOf_ne_zero_iff, State.mem_allEdits_iff]

/-- Where a directory is exact, an id that is used has its record, with these uses. -/
theorem DirExact.seg_of_used {st : Store} {uses : Nat → Uses} (h : DirExact st.dir uses) {id : Nat}
    (hid : uses id ≠ .none) : ∃ g, st.seg id = some g ∧ g.Exact (uses id) := by
  obtain ⟨g, hg, rfl⟩ := h.known id hid
  exact ⟨g, Store.seg_of_mem h.rise hg, h.records g hg⟩

section Laws

variable {s : State}

theorem State.Exact.opLaw (h : s.Exact) : s.store.opLaw = true := by
  rw [Store.opLaw_iff]
  refine ⟨fun g hg => ?_, fun op hop hnone => ?_, (pairwise_seg_iff _).mpr fun id => ?_⟩
  · have hrec := h.records g hg
    obtain ⟨hverifying, hdrained, -⟩ := (SegState.allows_iff _ _).mp hrec.allowed
    exact ⟨hrec.queued, hverifying.trans (usesOf_verify_iff _ _ _ g.id), fun hstate => by
      simp [hrec.queued, hdrained hstate]⟩
  · obtain ⟨g, hg, -⟩ := h.seg_of_used (st := s.store) (usesOf_ne_none_iff.mpr (.inl ⟨op, hop, rfl⟩))
    exact nomatch hnone.symm.trans hg
  · show (s.uses id).ops.Pairwise _
    by_cases hid : s.uses id = .none
    · rw [hid]
      exact .nil
    · obtain ⟨g, -, hrec⟩ := h.seg_of_used (st := s.store) hid
      obtain ⟨-, -, hlast, -⟩ := (SegState.allows_iff _ _).mp hrec.allowed
      exact hlast

theorem State.Exact.namesLaw (h : s.Exact) : s.namesLaw = true := by
  rw [State.namesLaw_iff]
  constructor
  · intro w hw id hid
    have hshows := (s.uses_shows_ne_zero_iff id).mpr ⟨w, hw, hid⟩
    obtain ⟨g, hg, hrec⟩ := h.seg_of_used (st := s.store) fun hnone => hshows (by rw [hnone]; rfl)
    obtain ⟨-, -, -, hshown, -⟩ := (SegState.allows_iff _ _).mp hrec.allowed
    exact ⟨g, hg, hshown hshows⟩
  · intro i w id he hid
    have hclaims := (s.uses_claims_ne_zero_iff id).mpr ⟨i, w, he, hid⟩
    obtain ⟨g, hg, hrec⟩ := h.seg_of_used (st := s.store) fun hnone => hclaims (by rw [hnone]; rfl)
    obtain ⟨-, -, -, -, hclaimed, -⟩ := (SegState.allows_iff _ _).mp hrec.allowed
    exact ⟨g, hg, hclaimed hclaims⟩

theorem State.Exact.countLaw (h : s.Exact) : s.countLaw = true := by
  rw [State.countLaw_iff]
  intro g hg
  have hrec := h.records g hg
  obtain ⟨-, -, -, -, -, hretiring⟩ := (SegState.allows_iff _ _).mp hrec.allowed
  rw [← hrec.active, ← hrec.staged] at hretiring
  exact ⟨hrec.active.trans (s.uses_shows g.id), hrec.staged.trans (s.namesOf_allEdits g.id), hretiring, hrec.blocks⟩

theorem State.exact_of_laws (hrise : idsRise s.store.dir = true) (hop : s.store.opLaw = true)
    (hnames : s.namesLaw = true) (hcount : s.countLaw = true) : s.Exact := by
  obtain ⟨hops, hqueue, hlast⟩ := s.store.opLaw_iff.mp hop
  obtain ⟨hshown, hclaimed⟩ := s.namesLaw_iff.mp hnames
  refine ⟨hrise, fun g hg => ?_, fun id hid => ?_⟩
  · obtain ⟨hqueued, hverifying, hdrained⟩ := hops g hg
    obtain ⟨hactive, hstaged, hretiring, hblocks⟩ := s.countLaw_iff.mp hcount g hg
    have hseg := Store.seg_of_mem hrise hg
    rw [← s.uses_shows] at hactive
    rw [← s.namesOf_allEdits] at hstaged
    refine ⟨hqueued, hactive, hstaged, (SegState.allows_iff _ _).mpr ⟨hverifying.trans (usesOf_verify_iff _ _ _ g.id).symm,
      fun hstate => List.eq_nil_of_length_eq_zero (hqueued.symm.trans (hdrained hstate)),
      (pairwise_seg_iff _).mp hlast g.id, fun hshows => ?_, fun hclaims => ?_, ?_⟩, hblocks⟩
    · obtain ⟨w, hw, hid⟩ := (s.uses_shows_ne_zero_iff g.id).mp hshows
      obtain ⟨r, hr, hstate⟩ := hshown w hw g.id hid
      obtain rfl := Option.some.inj (hseg.symm.trans hr)
      exact hstate
    · obtain ⟨i, w, he, hid⟩ := (s.uses_claims_ne_zero_iff g.id).mp hclaims
      obtain ⟨r, hr, hstate⟩ := hclaimed i w g.id he hid
      obtain rfl := Option.some.inj (hseg.symm.trans hr)
      exact hstate
    · rw [hstaged, hactive] at hretiring
      exact hretiring
  · have hfound {g : Segment} (hg : s.store.seg id = some g) : ∃ g ∈ s.store.dir, g.id = id :=
      ⟨g, Store.seg_mem hg, Store.seg_id hg⟩
    rcases usesOf_ne_none_iff.mp hid with ⟨op, hop, rfl⟩ | hnamed | ⟨e, he, hnames⟩
    · obtain ⟨g, hg⟩ := Option.ne_none_iff_exists'.mp (hqueue op hop)
      exact hfound hg
    · obtain ⟨w, hw, hid⟩ := List.mem_map.mp hnamed
      obtain ⟨g, hg, -⟩ := hshown w hw id hid
      exact hfound hg
    · obtain ⟨i, w, rfl, hid⟩ := (namesSeg_iff id e).mp hnames
      obtain ⟨g, hg, -⟩ := hclaimed i w id ((s.mem_allEdits_iff _).mp he) hid
      exact hfound hg

/-- The four laws are that the directory is exact. -/
theorem State.exact_iff :
    s.Exact ↔ idsRise s.store.dir = true ∧ s.store.opLaw = true ∧ s.namesLaw = true ∧ s.countLaw = true :=
  ⟨fun h => ⟨h.rise, h.opLaw, h.namesLaw, h.countLaw⟩,
    fun ⟨hrise, hop, hnames, hcount⟩ => State.exact_of_laws hrise hop hnames hcount⟩

end Laws

end Sys2Proof.Machine

namespace Sys2Proof.Machine

/-! ## A change to one record, with the change to its uses -/

section State

variable {state : SegState} {u : Uses}

theorem SegState.allows.unclaim (h : state.allows u) (n : Nat) : state.allows { u with claims := u.claims - n } := by
  cases state with
  | loading =>
    obtain ⟨hshows, hclaims, hops⟩ := h
    exact ⟨hshows, by simp [hclaims], hops⟩
  | verifying =>
    obtain ⟨hshows, hclaims, hops⟩ := h
    exact ⟨hshows, by simp [hclaims], hops⟩
  | ready => exact h
  | retiring =>
    obtain ⟨hops, hclaims, hshows⟩ := h
    exact ⟨hops, by simp [hclaims], hshows⟩

theorem SegState.allows.unshow (h : state.allows { u with shows := u.shows + 1 })
    (hheld : state = .retiring → u.shows ≠ 0) : state.allows u := by
  cases state with
  | loading =>
    obtain ⟨hshows, -⟩ := h
    exact absurd hshows (Nat.succ_ne_zero _)
  | verifying =>
    obtain ⟨hshows, -⟩ := h
    exact absurd hshows (Nat.succ_ne_zero _)
  | ready => exact h
  | retiring =>
    obtain ⟨hops, hclaims, -⟩ := h
    exact ⟨hops, hclaims, hheld rfl⟩

theorem SegState.allows.finishWrite {op : StoreOp} (h : state.allows { u with ops := op :: u.ops })
    (hwrite : op.isVerify = false) : state.allows u := by
  cases state with
  | loading =>
    obtain ⟨hshows, hclaims, hops⟩ := h
    exact ⟨hshows, hclaims, fun o ho => hops o (.tail _ ho)⟩
  | verifying =>
    obtain ⟨hshows, hclaims, writes, check, hops, hcheck, hwrites⟩ := h
    cases writes with
    | nil =>
      obtain ⟨rfl, -⟩ := List.cons.inj hops
      exact absurd hcheck (by simp [hwrite])
    | cons w ws =>
      obtain ⟨-, hrest⟩ := List.cons.inj hops
      exact ⟨hshows, hclaims, ws, check, hrest, hcheck, fun o ho => hwrites o (.tail _ ho)⟩
  | ready => exact absurd h (List.cons_ne_nil _ _)
  | retiring =>
    obtain ⟨hops, -⟩ := h
    exact absurd hops (List.cons_ne_nil _ _)

/-- A verify at the head of the queue is its segment's last operation, and the segment is in no other use. -/
theorem SegState.allows.of_verify {op : StoreOp} (h : state.allows { u with ops := op :: u.ops })
    (hverify : op.isVerify = true) : u = .none := by
  cases state with
  | loading =>
    obtain ⟨-, -, hops⟩ := h
    exact absurd (hops op (.head _)) (by simp [hverify])
  | verifying =>
    obtain ⟨hshows, hclaims, writes, check, hops, hcheck, hwrites⟩ := h
    obtain ⟨ops, shows, claims⟩ := u
    cases writes with
    | nil =>
      obtain ⟨-, rfl⟩ := List.cons.inj hops
      cases hshows
      cases hclaims
      rfl
    | cons w ws =>
      obtain ⟨rfl, -⟩ := List.cons.inj hops
      exact absurd (hwrites op (.head _)) (by simp [hverify])
  | ready => exact absurd h (List.cons_ne_nil _ _)
  | retiring =>
    obtain ⟨hops, -⟩ := h
    exact absurd hops (List.cons_ne_nil _ _)

theorem SegState.allows.overlay (h : state.allows u) (hkept : state ≠ .retiring) :
    state.allows { u with shows := 0, claims := 0 } := by
  cases state with
  | loading =>
    obtain ⟨-, -, hops⟩ := h
    exact ⟨rfl, rfl, hops⟩
  | verifying =>
    obtain ⟨-, -, hops⟩ := h
    exact ⟨rfl, rfl, hops⟩
  | ready => exact h
  | retiring => exact absurd rfl hkept

end State

section Record

variable {g : Segment} {u : Uses}

/-- A staged acquire, of a READY segment (R40, R85). -/
theorem Segment.Exact.claim (h : g.Exact u) (hready : g.state = .ready) :
    ({ g with staged := g.staged + 1 } : Segment).Exact { u with claims := u.claims + 1 } where
  queued := h.queued
  active := h.active
  staged := congrArg (· + 1) h.staged
  allowed := by simpa [SegState.allows, hready] using h.allowed
  blocks := h.blocks

/-- Staged releases (R85). -/
theorem Segment.Exact.unclaim (h : g.Exact u) (n : Nat) :
    ({ g with staged := g.staged - n } : Segment).Exact { u with claims := u.claims - n } where
  queued := h.queued
  active := h.active
  staged := congrArg (· - n) h.staged
  allowed := h.allowed.unclaim n
  blocks := h.blocks

/-- An active acquire, of a READY segment (R56, R86). -/
theorem Segment.Exact.show (h : g.Exact u) (hready : g.state = .ready) :
    ({ g with active := g.active + 1 } : Segment).Exact { u with shows := u.shows + 1 } where
  queued := h.queued
  active := congrArg (· + 1) h.active
  staged := h.staged
  allowed := by simpa [SegState.allows, hready] using h.allowed
  blocks := h.blocks

/-- An active release that leaves a RETIRING segment a reference (R86, R87). -/
theorem Segment.Exact.unshow (h : g.Exact { u with shows := u.shows + 1 })
    (hheld : g.state = .retiring → u.shows ≠ 0) :
    ({ g with active := g.active - 1 } : Segment).Exact u where
  queued := h.queued
  active := by
    show g.active - 1 = u.shows
    rw [h.active]
    exact Nat.add_sub_cancel _ 1
  staged := h.staged
  allowed := h.allowed.unshow hheld
  blocks := h.blocks

/-- A write queued for a LOADING segment (R75, R76). -/
theorem Segment.Exact.queueWrite (h : g.Exact u) (hloading : g.state = .loading) {op : StoreOp}
    (hwrite : op.isVerify = false) :
    ({ g with queued := g.queued + 1 } : Segment).Exact { u with ops := u.ops ++ [op] } where
  queued := by simp [h.queued]
  active := h.active
  staged := h.staged
  allowed := by
    obtain ⟨hshows, hclaims, hops⟩ := hloading ▸ h.allowed
    simp only [hloading]
    refine ⟨hshows, hclaims, fun o ho => ?_⟩
    rcases List.mem_append.mp ho with ho | ho
    · exact hops o ho
    · rwa [List.mem_singleton.mp ho]
  blocks := h.blocks

/-- A verify queued for a LOADING segment, which is VERIFYING then (R79). -/
theorem Segment.Exact.queueVerify (h : g.Exact u) (hloading : g.state = .loading) {op : StoreOp}
    (hverify : op.isVerify = true) :
    ({ g with state := .verifying, queued := g.queued + 1 } : Segment).Exact { u with ops := u.ops ++ [op] } where
  queued := by simp [h.queued]
  active := h.active
  staged := h.staged
  allowed := by
    obtain ⟨hshows, hclaims, hops⟩ := hloading ▸ h.allowed
    exact ⟨hshows, hclaims, u.ops, op, rfl, hverify, hops⟩
  blocks := h.blocks

/-- The write at the head of the queue completed (R77). -/
theorem Segment.Exact.finishWrite {op : StoreOp} (h : g.Exact { u with ops := op :: u.ops })
    (hwrite : op.isVerify = false) : ({ g with queued := g.queued - 1 } : Segment).Exact u where
  queued := by simp [h.queued]
  active := h.active
  staged := h.staged
  allowed := h.allowed.finishWrite hwrite
  blocks := h.blocks

/-- The verify at the head of the queue completed: READY on a match, LOADING on a mismatch (R81). -/
theorem Segment.Exact.finishVerify {op : StoreOp} (h : g.Exact { u with ops := op :: u.ops })
    (hverify : op.isVerify = true) {state : SegState} (hstate : state = .ready ∨ state = .loading)
    (check : Option (BitVec 32)) :
    ({ g with state := state, queued := g.queued - 1, check := check } : Segment).Exact u where
  queued := by simp [h.queued]
  active := h.active
  staged := h.staged
  allowed := by
    rw [h.allowed.of_verify hverify]
    rcases hstate with rfl | rfl
    · rfl
    · exact ⟨rfl, rfl, nofun⟩
  blocks := h.blocks

/-- A segment that a window names and nothing else uses becomes RETIRING (R84). -/
theorem Segment.Exact.retire (h : g.Exact u) (hqueued : g.queued = 0) (hstaged : g.staged = 0)
    (hactive : g.active ≠ 0) : ({ g with state := .retiring } : Segment).Exact u where
  queued := h.queued
  active := h.active
  staged := h.staged
  allowed := ⟨List.eq_nil_of_length_eq_zero (h.queued.symm.trans hqueued), h.staged.symm.trans hstaged,
    h.active ▸ hactive⟩
  blocks := h.blocks

/-- A record without counts has no use. -/
theorem Segment.Exact.unused (h : g.Exact u) (hqueued : g.queued = 0) (hstaged : g.staged = 0)
    (hactive : g.active = 0) : u = .none := by
  obtain ⟨ops, shows, claims⟩ := u
  obtain rfl := List.eq_nil_of_length_eq_zero (h.queued.symm.trans hqueued)
  obtain rfl := h.active.symm.trans hactive
  obtain rfl := h.staged.symm.trans hstaged
  rfl

/-- An OVERLAY reset leaves a segment that is not RETIRING its operations alone (R93). -/
theorem Segment.Exact.overlay (h : g.Exact u) (hkept : g.state ≠ .retiring) :
    ({ g with active := 0, staged := 0 } : Segment).Exact { u with shows := 0, claims := 0 } where
  queued := h.queued
  active := rfl
  staged := rfl
  allowed := h.allowed.overlay hkept
  blocks := h.blocks

end Record
end Sys2Proof.Machine

namespace Sys2Proof.Machine

/-! ## A change to the directory, with the change to its uses -/

/-- The record of a segment just created: LOADING, with no counts and no check value (R72). -/
def Segment.created (id length : Nat) (blocks : List Nat) : Segment :=
  { id := id, state := .loading, length := length, blocks := blocks, active := 0, staged := 0, queued := 0,
    check := none }

theorem Store.create_dir_eq (st : Store) (id length : Nat) : (st.create id length).dir =
    insertSeg (.created id length (st.freeList.take (blocksFor length))) st.dir := rfl

section Directory

variable {st : Store} {dir : List Segment} {uses uses' : Nat → Uses} {id : Nat} {g : Segment}

theorem DirExact.record (h : DirExact st.dir uses) (hg : st.seg id = some g) : g.Exact (uses id) :=
  Store.seg_id hg ▸ h.records g (Store.seg_mem hg)

/-- An id that no record has is not used. -/
theorem DirExact.unused (h : DirExact st.dir uses) (hnew : st.seg id = none) : uses id = .none := by
  refine Classical.byContradiction fun hid => ?_
  obtain ⟨g, hg, -⟩ := h.seg_of_used hid
  exact nomatch hnew.symm.trans hg

/-- Records that change together, each with its uses. -/
theorem DirExact.map {f : Segment → Segment} (h : DirExact dir uses) (hid : ∀ g, (f g).id = g.id)
    (hrec : ∀ g ∈ dir, (f g).Exact (uses' g.id)) (hused : ∀ id, uses' id ≠ .none → uses id ≠ .none ∨ ∃ g ∈ dir, g.id = id) :
    DirExact (dir.map f) uses' where
  rise := idsRise_map hid h.rise
  records := by
    simp only [List.forall_mem_map, hid]
    exact hrec
  known id hne := by
    obtain ⟨g, hg, rfl⟩ := (hused id hne).elim (h.known id) fun hg => hg
    exact ⟨f g, List.mem_map_of_mem hg, hid g⟩

/-- One record changes, with its uses. -/
theorem DirExact.update {f : Segment → Segment} (h : DirExact st.dir uses) (hg : st.seg id = some g)
    (hid : ∀ r, (f r).id = r.id) (hothers : ∀ j, j ≠ id → uses' j = uses j) (hrec : (f g).Exact (uses' id)) :
    DirExact (st.update id f).dir uses' := by
  rw [Store.update_dir]
  refine h.map (fun r => ?_) (fun r hr => ?_) fun j hj => ?_
  · split
    · exact hid r
    · rfl
  · split
    · next hrid =>
      have hrid := eq_of_beq hrid
      obtain rfl := Option.some.inj (((hrid ▸ Store.seg_of_mem h.rise hr).symm.trans hg))
      rwa [hrid]
    · next hrid =>
      rw [hothers r.id (by simpa using hrid)]
      exact h.records r hr
  · by_cases hjid : j = id
    · exact .inr ⟨g, Store.seg_mem hg, (Store.seg_id hg).trans hjid.symm⟩
    · rw [hothers j hjid] at hj
      exact .inl hj

/-- Records are removed that are not used any more. -/
theorem DirExact.filter {keep : Segment → Bool} (h : DirExact dir uses)
    (hkept : ∀ g ∈ dir, keep g = true → g.Exact (uses' g.id))
    (hused : ∀ id, uses' id ≠ .none → uses id ≠ .none)
    (hgone : ∀ g ∈ dir, keep g = false → uses' g.id = .none) : DirExact (dir.filter keep) uses' where
  rise := idsRise_filter keep h.rise
  records g hg := hkept g (List.mem_filter.mp hg).1 (List.mem_filter.mp hg).2
  known id hne := by
    obtain ⟨g, hg, rfl⟩ := h.known id (hused id hne)
    have hkeep : keep g = true := by
      cases hk : keep g with
      | true => rfl
      | false => exact absurd (hgone g hg hk) hne
    exact ⟨g, List.mem_filter.mpr ⟨hg, hkeep⟩, rfl⟩

/-- A segment freed when nothing uses it any more (R84, R87). -/
theorem DirExact.free (h : DirExact st.dir uses) (hothers : ∀ j, j ≠ g.id → uses' j = uses j)
    (hnone : uses' g.id = .none) : DirExact (st.free g).dir uses' := by
  rw [Store.free_dir]
  refine h.filter (fun r hr hkeep => ?_) (fun j hj => ?_) fun r _ hgone => ?_
  · rw [hothers r.id (bne_iff_ne.mp hkeep)]
    exact h.records r hr
  · rw [← hothers j fun hjid => hj (hjid ▸ hnone)]
    exact hj
  · rwa [show r.id = g.id by simpa using hgone]

/-- A segment created: its id was new, so nothing uses it (R72). -/
theorem DirExact.create (h : DirExact st.dir uses) (hnew : st.seg id = none) {length : Nat}
    (hroom : blocksFor length ≤ st.freeList.length) : DirExact (st.create id length).dir uses := by
  rw [Store.create_dir_eq]
  have hmem (r : Segment) := (insertSeg_perm (.created id length (st.freeList.take (blocksFor length))) st.dir).mem_iff
    (a := r)
  refine ⟨idsRise_insertSeg ((st.seg_eq_none_iff id).mp hnew) h.rise, fun r hr => ?_, fun j hj => ?_⟩
  · rcases List.mem_cons.mp ((hmem r).mp hr) with rfl | hr
    · show Segment.Exact _ (uses id)
      rw [h.unused hnew]
      exact ⟨rfl, rfl, rfl, ⟨rfl, rfl, nofun⟩, List.length_take_of_le hroom⟩
    · exact h.records r hr
  · obtain ⟨r, hr, hrid⟩ := h.known j hj
    exact ⟨r, (hmem r).mpr (.tail _ hr), hrid⟩

/-- The staged references of a set released (R85). -/
theorem DirExact.released (h : DirExact st.dir uses) (edits : List Edit) :
    DirExact (st.released edits).dir
      fun id => { uses id with claims := (uses id).claims - namesOf edits id } := by
  refine h.map (fun _ => rfl) (fun g hg => (h.records g hg).unclaim _) fun id hne => .inl fun hid => hne ?_
  simp only [hid, Uses.none, Nat.zero_sub]

/-- An OVERLAY reset: no window and no edit names a segment any more, and the operations stay (R93). -/
theorem DirExact.overlayReset (h : DirExact st.dir uses) :
    DirExact st.overlayReset.dir fun id => { uses id with shows := 0, claims := 0 } := by
  refine ⟨idsRise_map (fun _ => rfl) (idsRise_filter _ h.rise), fun r hr => ?_, fun id hne => ?_⟩
  · obtain ⟨g, hg, rfl⟩ := List.mem_map.mp hr
    obtain ⟨hmem, hkept⟩ := List.mem_filter.mp hg
    exact (h.records g hmem).overlay (bne_iff_ne.mp hkept)
  · have hused : uses id ≠ .none := fun hid => hne (by rw [hid]; rfl)
    obtain ⟨g, hg, rfl⟩ := h.known id hused
    have hkept : g.state ≠ .retiring := fun hretiring => by
      obtain ⟨hops, -⟩ := hretiring ▸ (h.records g hg).allowed
      exact hne (by simp only [hops, Uses.none])
    exact ⟨_, List.mem_map_of_mem (List.mem_filter.mpr ⟨hg, bne_iff_ne.mpr hkept⟩), rfl⟩

end Directory
end Sys2Proof.Machine

namespace Sys2Proof.Machine

/-! ## The uses of a state's segments, by what an operation changes -/

theorem namesOf_winStage_of_none {w : WindowRec} (h : w.segment = none) (i id : Nat) :
    namesOf [.winStage i w] id = 0 := by
  simp [namesOf, namesSeg, h]

theorem namesOf_winStage_of_some {w : WindowRec} {id : Nat} (h : w.segment = some id) (i j : Nat) :
    namesOf [.winStage i w] j = if j = id then 1 else 0 := by
  by_cases hj : j = id
  · simp [namesOf, namesSeg, h, hj]
  · simp [namesOf, namesSeg, h, hj, Ne.symm hj]

section Uses

variable {s t : State}

/-- The uses rest on the access queue, the window records, and the numbers of edits. -/
theorem State.uses_congr (hqueue : t.store.queue = s.store.queue) (hwins : t.comp.wins = s.comp.wins)
    (hedits : ∀ id, namesOf t.allEdits id = namesOf s.allEdits id) : t.uses = s.uses := by
  funext id
  simp only [State.uses, usesOf, hqueue, hwins, hedits]

theorem State.Exact.still (h : s.Exact) (ht : s.Still t) : t.Exact := by
  have huses : t.uses = s.uses := State.uses_congr (by rw [ht.store]) ht.wins fun id => by
    rw [State.allEdits, ht.cset, State.allEdits]
  rw [State.Exact, huses, ht.store]
  exact h

theorem usesOf_queue_other (queue : List StoreOp) (op : StoreOp) (named : List (Option Nat)) (edits : List Edit)
    {j : Nat} (hj : j ≠ op.seg) : usesOf (queue ++ [op]) named edits j = usesOf queue named edits j := by
  simp [usesOf, List.filter_append, Ne.symm hj]

theorem usesOf_queue_same (queue : List StoreOp) (op : StoreOp) (named : List (Option Nat)) (edits : List Edit) :
    usesOf (queue ++ [op]) named edits op.seg =
      { usesOf queue named edits op.seg with ops := (usesOf queue named edits op.seg).ops ++ [op] } := by
  simp [usesOf, List.filter_append]

theorem usesOf_head_other (queue : List StoreOp) (op : StoreOp) (named : List (Option Nat)) (edits : List Edit)
    {j : Nat} (hj : j ≠ op.seg) : usesOf (op :: queue) named edits j = usesOf queue named edits j := by
  simp [usesOf, Ne.symm hj]

theorem usesOf_head_same (queue : List StoreOp) (op : StoreOp) (named : List (Option Nat)) (edits : List Edit) :
    usesOf (op :: queue) named edits op.seg =
      { usesOf queue named edits op.seg with ops := op :: (usesOf queue named edits op.seg).ops } := by
  simp [usesOf]

/-! ## The change sets (R37 to R40, R51, R60, R61, R85) -/

theorem State.namesOf_staged (s : State) (e : Edit) (id : Nat) :
    namesOf (s.staged e).allEdits id = namesOf s.allEdits id + namesOf [e] id := by
  rw [State.namesOf_allEdits, State.namesOf_allEdits, State.staged, namesOf_append]
  exact Nat.add_right_comm _ _ _

theorem Store.ready_of_segmentRefusal_none {st : Store} {id : Nat} (h : st.segmentRefusal (some id) = none) :
    ∃ g, st.seg id = some g ∧ g.state = .ready := by
  simp only [Store.segmentRefusal] at h
  split at h
  · cases h
  · next g hg =>
    split at h
    · cases h
    · cases h
    · cases h
    · next hready => exact ⟨g, hg, hready⟩

/-- An edit that names no segment uses none. -/
theorem State.Exact.staged (h : s.Exact) {e : Edit} (he : ∀ id, namesOf [e] id = 0) : (s.staged e).Exact := by
  have huses : (s.staged e).uses = s.uses :=
    State.uses_congr rfl rfl fun id => by rw [State.namesOf_staged, he, Nat.add_zero]
  rw [State.Exact, huses]
  exact h

/-- A WIN_STAGE is taken with its claim on the READY segment that it names. -/
theorem State.Exact.stagedClaim (h : s.Exact) {i : Nat} {w : WindowRec}
    (hpass : s.store.segmentRefusal w.segment = none) :
    State.Exact { s.staged (.winStage i w) with store := s.store.claimStaged w.segment } := by
  cases hseg : w.segment with
  | none => exact h.staged fun id => namesOf_winStage_of_none hseg i id
  | some id =>
    obtain ⟨g, hg, hready⟩ := Store.ready_of_segmentRefusal_none (hseg ▸ hpass)
    have huses (j : Nat) : (s.staged (.winStage i w)).uses j =
        { s.uses j with claims := (s.uses j).claims + if j = id then 1 else 0 } := by
      rw [← namesOf_winStage_of_some hseg i j]
      exact congrArg (Uses.mk _ _) (s.namesOf_staged _ j)
    refine DirExact.update h hg (fun _ => rfl) (fun j hj => ?_) ?_
    · exact (huses j).trans (by rw [if_neg hj, Nat.add_zero])
    · show Segment.Exact _ ((s.staged (.winStage i w)).uses id)
      rw [huses, if_pos rfl]
      exact (DirExact.record h hg).claim hready

theorem State.stage_exact (h : s.Exact) {e : Edit} (he : ∀ id, namesOf [e] id = 0) : (s.stage e).1.Exact := by
  by_cases hroom : s.canStage e.bytes
  · rw [State.stage_of_room hroom]
    exact h.staged he
  · rwa [State.stage_of_full hroom]

theorem State.takeWinStage_exact (h : s.Exact) (p : List Byte) : (s.takeWinStage p).1.Exact := by
  unfold State.takeWinStage
  split
  · exact h
  · simp only []
    split
    · exact h
    · next hpass =>
      by_cases hroom : s.canStage (Edit.winStage (u1 p 0) (windowOf p)).bytes
      · rw [State.stage_of_room hroom]
        exact h.stagedClaim hpass
      · rw [State.stage_of_full hroom]
        exact h

/-- A commit moves the edits from one set to the other (R51). -/
theorem State.takeSetCommit_exact (h : s.Exact) (p : List Byte) : (s.takeSetCommit p).1.Exact := by
  unfold State.takeSetCommit
  split
  · exact h
  · split
    · exact h
    · next hsched =>
      split
      · exact h
      · split
        · exact h
        · split
          · exact h
          · have huses : (s.committed (targetOf p)).uses = s.uses := State.uses_congr rfl rfl fun id => by
              rw [State.namesOf_allEdits, State.namesOf_allEdits, State.committed]
              simp [ChangeSet.scheduledEdits, hsched, namesOf]
            show DirExact s.store.dir (s.committed (targetOf p)).uses
            rw [huses]
            exact h

/-- The claims of edits that leave both sets are released. -/
theorem State.Exact.released (h : s.Exact) {edits : List Edit} (hstore : t.store = s.store.released edits)
    (hwins : t.comp.wins = s.comp.wins)
    (hedits : ∀ id, namesOf s.allEdits id = namesOf edits id + namesOf t.allEdits id) : t.Exact := by
  have huses : t.uses = fun id => { s.uses id with claims := (s.uses id).claims - namesOf edits id } := by
    funext id
    simp only [State.uses, usesOf, hstore, hwins, hedits, Nat.add_sub_cancel_left]
    rfl
  rw [State.Exact, huses, hstore]
  exact DirExact.released h edits

theorem State.takeSetDiscard_exact (h : s.Exact) (p : List Byte) : (s.takeSetDiscard p).1.Exact := by
  by_cases hopen : s.cset.openSet = []
  · rw [State.takeSetDiscard, if_pos hopen]
    exact h
  · rw [State.takeSetDiscard_of_filled hopen]
    exact h.released rfl rfl fun id => by
      rw [State.namesOf_allEdits, State.namesOf_allEdits]
      simp [ChangeSet.scheduledEdits, namesOf]

theorem State.takeSetWithdraw_exact (h : s.Exact) (p : List Byte) : (s.takeSetWithdraw p).1.Exact := by
  cases hsched : s.cset.scheduled with
  | none =>
    rw [State.takeSetWithdraw_of_none hsched]
    exact h
  | some w =>
    rw [State.takeSetWithdraw_of_scheduled hsched]
    exact h.released rfl rfl fun id => by
      rw [State.namesOf_allEdits, State.namesOf_allEdits]
      simp [ChangeSet.scheduledEdits, namesOf, hsched, Nat.add_comm]

/-! ## Segment messages (R71, R72, R76, R79, R83, R84) -/

theorem State.takeSegCreate_exact (h : s.Exact) (p : List Byte) : (s.takeSegCreate p).1.Exact := by
  unfold State.takeSegCreate
  simp only []
  split
  · exact h
  · split
    · exact h
    · next hnew =>
      split
      · exact h
      · split
        · exact h
        · next hroom => exact DirExact.create h hnew (Nat.not_lt.mp hroom)

/-- Two changes to one record are one. -/
theorem Store.update_update (st : Store) (id : Nat) {f : Segment → Segment} (hid : ∀ g, (f g).id = g.id)
    (f' : Segment → Segment) : (st.update id f).update id f' = st.update id (f' ∘ f) := by
  simp only [Store.update, List.map_map]
  congr 2
  funext g
  by_cases hg : g.id = id <;> simp [hg, hid]

/-- A record changed, and an operation of its segment queued, is one change to the record. -/
theorem Store.enqueue_update (st : Store) (id : Nat) {f : Segment → Segment} (hid : ∀ g, (f g).id = g.id)
    (op : StoreOp) : (st.update id f).enqueue id op =
      { st.update id (fun g => { f g with queued := (f g).queued + 1 }) with queue := st.queue ++ [op] } := by
  rw [Store.enqueue, Store.update_update st id hid]
  rfl

/-- An operation of a segment taken from the queue, and its record changed, is one change to the record. -/
theorem Store.update_dequeue (st : Store) (id : Nat) (f : Segment → Segment) : (st.dequeue id).update id f =
    { st.update id (fun g => f { g with queued := g.queued - 1 }) with queue := st.queue.tail } := by
  have hupdate := st.update_update id (f := fun g => { g with queued := g.queued - 1 }) (fun _ => rfl) f
  calc (st.dequeue id).update id f
      = { (st.update id (fun g => { g with queued := g.queued - 1 })).update id f with queue := st.queue.tail } := rfl
    _ = _ := by rw [hupdate]; rfl

/-- An operation queued for a segment, with the change to its record. -/
theorem State.Exact.enqueue (h : s.Exact) {id : Nat} {g : Segment} (hg : s.store.seg id = some g) {op : StoreOp}
    (hop : op.seg = id) {f : Segment → Segment} (hid : ∀ r, (f r).id = r.id)
    (hrec : (f g).Exact { s.uses id with ops := (s.uses id).ops ++ [op] })
    (hstore : t.store = { s.store.update id f with queue := s.store.queue ++ [op] }) (hwins : t.comp.wins = s.comp.wins)
    (hcset : t.cset = s.cset) : t.Exact := by
  subst hop
  have huses : t.uses = usesOf (s.store.queue ++ [op]) (s.comp.wins.map (·.segment)) s.allEdits := by
    rw [State.uses, hstore, hwins, State.allEdits, hcset, State.allEdits]
  rw [State.Exact, huses, hstore]
  refine DirExact.update h hg hid (fun j hj => usesOf_queue_other _ op _ _ hj) ?_
  rw [usesOf_queue_same]
  exact hrec

theorem State.takeSegWrite_exact (h : s.Exact) (ch : Chan) (p : List Byte) : (s.takeSegWrite ch p).1.Exact := by
  unfold State.takeSegWrite
  simp only []
  split
  · exact h
  · next g hg =>
    split
    · exact h
    · exact h
    · exact h
    · next hloading =>
      split
      · exact h
      · exact h.enqueue hg (op := .write (u4 p 0) ch (u4 p 4) (p.drop 8)) rfl (f := fun g => { g with queued := g.queued + 1 }) (fun _ => rfl)
          ((DirExact.record h hg).queueWrite hloading rfl) rfl rfl rfl

theorem State.takeSegClose_exact (h : s.Exact) (ch : Chan) (p : List Byte) : (s.takeSegClose ch p).1.Exact := by
  unfold State.takeSegClose
  simp only []
  split
  · exact h
  · next g hg =>
    split
    · exact h
    · exact h
    · exact h
    · next hloading =>
      refine h.enqueue hg (op := .verify (u4 p 0) ch (BitVec.ofNat 32 (u4 p 4))) rfl
        (f := fun g => { g with state := .verifying, queued := g.queued + 1 }) (fun _ => rfl) ((DirExact.record h hg).queueVerify hloading rfl) ?_ rfl rfl
      exact Store.enqueue_update s.store (u4 p 0) (f := fun g => { g with state := .verifying }) (fun _ => rfl) _

theorem State.takeSegDelete_exact (h : s.Exact) (p : List Byte) : (s.takeSegDelete p).1.Exact := by
  unfold State.takeSegDelete
  split
  · exact h
  · next g hg =>
    have hrec := DirExact.record h hg
    split
    · exact h
    · next hidle =>
      split
      · exact h
      · next hstaged =>
        obtain ⟨-, hqueued⟩ := not_or.mp hidle
        have hqueued := Nat.eq_zero_of_not_pos hqueued
        have hstaged := Nat.eq_zero_of_not_pos hstaged
        split
        · exact h
        · split
          · next hactive =>
            refine DirExact.free h (fun _ _ => rfl) ?_
            rw [Store.seg_id hg]
            exact hrec.unused hqueued hstaged hactive
          · next hactive =>
            rw [Store.seg_id hg]
            exact DirExact.update h hg (fun _ => rfl) (fun _ _ => rfl) (hrec.retire hqueued hstaged hactive)

/-- What its owner does for a message keeps the directory exact. -/
theorem State.dispatch_exact (h : s.Exact) (k : Kind) (ch : Chan) (p : List Byte) : (s.dispatch k ch p).1.Exact := by
  cases k with
  | winStage => exact State.takeWinStage_exact h p
  | winPlace =>
    show (s.takeWinPlace p).1.Exact
    unfold State.takeWinPlace; split
    · exact h
    · exact State.stage_exact h fun _ => rfl
  | winShow =>
    show (s.takeWinShow p).1.Exact
    unfold State.takeWinShow; split
    · exact h
    · exact State.stage_exact h fun _ => rfl
  | palStage =>
    show (s.takePalStage p).1.Exact
    unfold State.takePalStage; split
    · exact h
    · exact State.stage_exact h fun _ => rfl
  | fillStage =>
    show (s.takeFillStage p).1.Exact
    unfold State.takeFillStage; split
    · exact h
    · exact State.stage_exact h fun _ => rfl
  | setCommit => exact State.takeSetCommit_exact h p
  | setDiscard => exact State.takeSetDiscard_exact h p
  | setWithdraw => exact State.takeSetWithdraw_exact h p
  | segCreate => exact State.takeSegCreate_exact h p
  | segWrite => exact State.takeSegWrite_exact h ch p
  | segClose => exact State.takeSegClose_exact h ch p
  | segDelete => exact State.takeSegDelete_exact h p
  | _ => exact h.still ⟨by simp [State.dispatch], by simp [State.dispatch], by simp [State.dispatch]⟩

end Uses
end Sys2Proof.Machine

namespace Sys2Proof.Machine

/-! ## An application moves the references of the windows (R55, R56, R85 to R87) -/

/-- The directory has a READY record of an id. -/
def Store.hasReady (st : Store) (id : Nat) : Prop := ∃ g ∈ st.dir, g.id = id ∧ g.state = .ready

/-- Records that keep their id and state. -/
theorem Store.hasReady_of_map {st st' : Store} {f : Segment → Segment} (hdir : st'.dir = st.dir.map f)
    (hf : ∀ g, (f g).id = g.id ∧ (f g).state = g.state) {id : Nat} (h : st.hasReady id) : st'.hasReady id := by
  obtain ⟨g, hg, rfl, hstate⟩ := h
  obtain ⟨hid, hkept⟩ := hf g
  exact ⟨f g, hdir ▸ List.mem_map_of_mem hg, hid, hkept.trans hstate⟩

theorem Store.hasReady_update {st : Store} {id j : Nat} {f : Segment → Segment}
    (hf : ∀ g, (f g).id = g.id ∧ (f g).state = g.state) (h : st.hasReady j) : (st.update id f).hasReady j := by
  refine Store.hasReady_of_map (st.update_dir id f) (fun g => ?_) h
  split
  · exact hf g
  · exact ⟨rfl, rfl⟩

/-- The last reference of a RETIRING segment is its last use. -/
theorem Segment.Exact.lastUse {g : Segment} {u : Uses} (h : g.Exact { u with shows := u.shows + 1 })
    (hretiring : g.state = .retiring) (hlast : g.active - 1 = 0) : u = .none := by
  obtain ⟨ops, shows, claims⟩ := u
  obtain ⟨rfl, rfl, -⟩ := hretiring ▸ h.allowed
  obtain rfl : shows = 0 := by rwa [h.active] at hlast
  rfl

section Moves

variable {s : State} {uses uses' : Nat → Uses} {id : Nat}

theorem State.activeRelease_exact (h : DirExact s.store.dir uses) (hothers : ∀ j, j ≠ id → uses' j = uses j)
    (hid : uses id = { uses' id with shows := (uses' id).shows + 1 }) (f : FrameNo) :
    DirExact (s.activeRelease f id).store.dir uses' := by
  obtain ⟨g, hg, hrec⟩ := h.seg_of_used (st := s.store) (id := id) fun hnone =>
    Nat.succ_ne_zero _ (congrArg Uses.shows (hid.symm.trans hnone))
  obtain rfl := Store.seg_id hg
  rw [hid] at hrec
  simp only [State.activeRelease, hg]
  split
  · next hlast =>
    obtain ⟨hretiring, hlast⟩ := hlast
    simp only [State.offerNotice_store, State.raise_store]
    exact h.free hothers (hrec.lastUse hretiring hlast)
  · next hmore =>
    refine h.update hg (fun _ => rfl) hothers (hrec.unshow fun hretiring hzero => hmore ⟨hretiring, ?_⟩)
    rw [hrec.active]
    exact hzero

/-- Only a RETIRING segment is freed by a release. -/
theorem State.activeRelease_ready (hrise : idsRise s.store.dir = true) {j : Nat} (h : s.store.hasReady j)
    (f : FrameNo) : (s.activeRelease f id).store.hasReady j := by
  unfold State.activeRelease
  split
  · exact h
  · next g hg =>
    split
    · next hlast =>
      obtain ⟨r, hr, hrid, hready⟩ := h
      simp only [State.offerNotice_store, State.raise_store]
      refine ⟨r, List.mem_filter.mpr ⟨hr, bne_iff_ne.mpr fun hsame => ?_⟩, hrid, hready⟩
      obtain rfl := Store.eq_of_id_eq hrise hr (Store.seg_mem hg) hsame
      exact nomatch hready.symm.trans hlast.1
    · exact Store.hasReady_update (fun _ => ⟨rfl, rfl⟩) h

theorem State.activeAcquire_exact (h : DirExact s.store.dir uses) (hready : s.store.hasReady id)
    (hothers : ∀ j, j ≠ id → uses' j = uses j) (hid : uses' id = { uses id with shows := (uses id).shows + 1 }) :
    DirExact (s.activeAcquire id).store.dir uses' := by
  obtain ⟨g, hg, rfl, hstate⟩ := hready
  have hseg := Store.seg_of_mem h.rise hg
  refine h.update hseg (fun _ => rfl) hothers ?_
  rw [hid]
  exact (h.records g hg).show hstate

end Moves

/-- The first half of a window's move: the reference to the segment it named released (R56). -/
def State.releaseOld (s : State) (f : FrameNo) : Option Nat → State
  | some id => s.activeRelease f id
  | none => s

/-- The second half: a reference to the segment it names acquired. -/
def State.acquireNew (s : State) : Option Nat → State
  | some id => s.activeAcquire id
  | none => s

theorem State.activeMove_eq (s : State) (f : FrameNo) (old new : Option Nat) :
    s.activeMove f old new = if old = new then s else (s.releaseOld f old).acquireNew new := by
  unfold State.activeMove
  split
  · rfl
  · cases old <;> cases new <;> rfl

theorem State.releaseOld_ready {s : State} (hrise : idsRise s.store.dir = true) {j : Nat} (h : s.store.hasReady j)
    (f : FrameNo) (old : Option Nat) : (s.releaseOld f old).store.hasReady j := by
  cases old with
  | none => exact h
  | some id => exact State.activeRelease_ready hrise h f

section NamedLists

variable {queue : List StoreOp} {edits : List Edit} {before later : List (Option Nat)} {id : Nat}

/-- One window names a segment, or no segment: for the other segments that is the same. -/
theorem usesOf_named_other {j : Nat} (hj : j ≠ id) : usesOf queue (before ++ some id :: later) edits j =
    usesOf queue (before ++ none :: later) edits j := by
  simp [usesOf, List.count_append, Ne.symm hj]

theorem usesOf_named_same : usesOf queue (before ++ some id :: later) edits id =
    { usesOf queue (before ++ none :: later) edits id with
      shows := (usesOf queue (before ++ none :: later) edits id).shows + 1 } := by
  simp [usesOf, List.count_append, Nat.add_assoc]

/-- One window's move, among the windows before it, which have moved, and those behind it, which have not. -/
theorem State.activeMove_exact {s : State} {old new : Option Nat}
    (h : DirExact s.store.dir (usesOf queue (before ++ old :: later) edits))
    (hready : old ≠ new → ∀ id, new = some id → s.store.hasReady id) (f : FrameNo) :
    DirExact (s.activeMove f old new).store.dir (usesOf queue (before ++ new :: later) edits) := by
  rw [State.activeMove_eq]
  split
  · next hsame => rwa [← hsame]
  · next hmoved =>
    have hreleased : DirExact (s.releaseOld f old).store.dir (usesOf queue (before ++ none :: later) edits) := by
      cases old with
      | none => exact h
      | some j => exact State.activeRelease_exact h (fun _ hj => (usesOf_named_other hj).symm) usesOf_named_same f
    cases new with
    | none => exact hreleased
    | some id =>
      exact State.activeAcquire_exact hreleased (State.releaseOld_ready h.rise (hready hmoved id rfl) f old)
        (fun _ hj => usesOf_named_other hj) usesOf_named_same

theorem State.activeMove_ready {s : State} (hrise : idsRise s.store.dir = true) {j : Nat} (h : s.store.hasReady j)
    (f : FrameNo) (old new : Option Nat) : (s.activeMove f old new).store.hasReady j := by
  rw [State.activeMove_eq]
  split
  · exact h
  · cases new with
    | none => exact State.releaseOld_ready hrise h f old
    | some id => exact Store.hasReady_update (fun _ => ⟨rfl, rfl⟩) (State.releaseOld_ready hrise h f old)

/-- The windows' moves, one after the other: from the segments that the windows named to those they name. -/
theorem State.activeMoves_exact (f : FrameNo) (moves : List (Option Nat × Option Nat)) {s : State}
    (h : DirExact s.store.dir (usesOf queue (before ++ moves.map (·.1)) edits))
    (hready : ∀ m ∈ moves, m.1 ≠ m.2 → ∀ id, m.2 = some id → s.store.hasReady id) :
    DirExact (moves.foldl (fun s m => s.activeMove f m.1 m.2) s).store.dir
      (usesOf queue (before ++ moves.map (·.2)) edits) := by
  induction moves generalizing s before with
  | nil => exact h
  | cons m ms ih =>
    have hmoved := State.activeMove_exact h (hready m (.head _)) f
    have hstep := ih (s := s.activeMove f m.1 m.2) (before := before ++ [m.2])
    simp only [List.append_assoc, List.singleton_append] at hstep
    exact hstep hmoved fun m' hm' hne id hid =>
      State.activeMove_ready h.rise (hready m' (.tail _ hm') hne id hid) f m.1 m.2

end NamedLists

/-! ### The segments that the windows name after an application -/

/-- An edit changes the segment that a window names only where it names that segment itself. -/
theorem Compositor.write_segments (c : Compositor) (e : Edit) {i : Nat} {x : Option Nat}
    (h : ((c.write e).wins.map (·.segment))[i]? = some x) :
    (c.wins.map (·.segment))[i]? = some x ∨ ∃ j w, e = .winStage j w ∧ w.segment = x := by
  cases e with
  | winStage j w =>
    rw [Compositor.write_winStage_wins, List.getElem?_map, List.getElem?_modify] at h
    rw [List.getElem?_map]
    by_cases hij : j = i
    · cases hold : c.wins[i]? with
      | none => simp [hold] at h
      | some w' => exact .inr ⟨j, w, rfl, by simpa [hold, hij] using h⟩
    · exact .inl (by simpa [hij] using h)
  | winPlace j x y =>
    rw [Compositor.write_winPlace_wins,
      map_modify_of_eq _ (fun w : WindowRec => { w with originX := x, originY := y }) fun _ => rfl] at h
    exact .inl h
  | winShow j on =>
    rw [Compositor.write_winShow_wins,
      map_modify_of_eq _ (fun w : WindowRec => { w with enabled := on }) fun _ => rfl] at h
    exact .inl h
  | palStage p first entries => exact .inl h
  | fillStage colour => exact .inl h

theorem Compositor.writeAll_segments (c : Compositor) (edits : List Edit) {i : Nat} {x : Option Nat}
    (h : ((c.writeAll edits).wins.map (·.segment))[i]? = some x) :
    (c.wins.map (·.segment))[i]? = some x ∨ ∃ j w, .winStage j w ∈ edits ∧ w.segment = x := by
  induction edits generalizing c with
  | nil => exact .inl h
  | cons e es ih =>
    rcases ih (c.write e) h with h | ⟨j, w, hw, hx⟩
    · rcases c.write_segments e h with h | ⟨j, w, rfl, hx⟩
      · exact .inl h
      · exact .inr ⟨j, w, .head _, hx⟩
    · exact .inr ⟨j, w, .tail _ hw, hx⟩

theorem Compositor.writeAll_wins_length (c : Compositor) (edits : List Edit) :
    (c.writeAll edits).wins.length = c.wins.length := by
  induction edits generalizing c with
  | nil => rfl
  | cons e es ih =>
    refine (ih (c.write e)).trans ?_
    cases e <;> simp

/-- What neither a change to a record nor a free touches, the windows' moves leave alone. -/
theorem State.activeMoves_keeps {α : Type} {part : Store → α}
    (hupdate : ∀ (st : Store) (id : Nat) (f : Segment → Segment), part (st.update id f) = part st)
    (hfree : ∀ (st : Store) (g : Segment), part (st.free g) = part st) (s : State) (f : FrameNo)
    (old new : List (Option Nat)) : part (s.activeMoves f old new).store = part s.store := by
  have released (s : State) (id : Nat) : part (s.activeRelease f id).store = part s.store := by
    unfold State.activeRelease
    split
    · rfl
    · split
      · simp only [State.offerNotice_store, State.raise_store, hfree]
      · exact hupdate _ _ _
  have moved (s : State) (a b : Option Nat) : part (s.activeMove f a b).store = part s.store := by
    have hold : part (s.releaseOld f a).store = part s.store := by
      cases a with
      | none => rfl
      | some id => exact released s id
    rw [State.activeMove_eq]
    split
    · rfl
    · cases b with
      | none => exact hold
      | some id => exact (hupdate _ _ _).trans hold
  unfold State.activeMoves
  generalize old.zip new = moves
  induction moves generalizing s with
  | nil => rfl
  | cons m ms ih => exact (ih _).trans (moved s m.1 m.2)

/-- A window that an application moves to a segment is moved to a READY one: an edit of the set names it (R40). -/
theorem State.Exact.ready_of_moved {s : State} (h : s.Exact) {set : Scheduled} (hsched : s.cset.scheduled = some set)
    {m : Option Nat × Option Nat}
    (hm : m ∈ (s.comp.wins.map (·.segment)).zip ((s.comp.writeAll set.edits).wins.map (·.segment)))
    (hne : m.1 ≠ m.2) {id : Nat} (hid : m.2 = some id) : s.store.hasReady id := by
  obtain ⟨i, hi⟩ := List.mem_iff_getElem?.mp hm
  obtain ⟨hold, hnew⟩ := List.getElem?_zip_eq_some.mp hi
  rcases s.comp.writeAll_segments set.edits hnew with hsame | ⟨j, w, hw, hseg⟩
  · exact absurd (Option.some.inj (hold.symm.trans hsame)) hne
  · obtain ⟨-, hedits⟩ := s.namesLaw_iff.mp h.namesLaw
    obtain ⟨g, hg, hready⟩ := hedits j w id (.inr ⟨set, hsched, hw⟩) (hseg.trans hid)
    exact ⟨g, Store.seg_mem hg, Store.seg_id hg, hready⟩

/-- An application keeps the directory exact: the set's claims are released, and each window's reference moves. -/
theorem State.applySet_exact {s : State} (h : s.Exact) (f : FrameNo) {set : Scheduled}
    (hsched : s.cset.scheduled = some set) : (s.applySet f set).Exact := by
  have hreleased : State.Exact { s with
      store := s.store.released set.edits, cset := { s.cset with scheduled := none, lastApp := some f } } :=
    h.released rfl rfl fun id => by
      rw [State.namesOf_allEdits, State.namesOf_allEdits]
      simp [ChangeSet.scheduledEdits, namesOf, hsched, Nat.add_comm]
  have hlength : (s.comp.wins.map (·.segment)).length = ((s.comp.writeAll set.edits).wins.map (·.segment)).length := by
    simp only [List.length_map, Compositor.writeAll_wins_length]
  have hmoves := State.activeMoves_exact f (before := []) (queue := s.store.queue)
    (edits := s.cset.openSet ++ []) (s := { s with comp := s.comp.apply set.edits, store := s.store.released set.edits })
    ((s.comp.wins.map (·.segment)).zip ((s.comp.writeAll set.edits).wins.map (·.segment)))
    (by rw [List.nil_append, List.map_fst_zip (Nat.le_of_eq hlength)]; exact hreleased)
    (fun m hm hne id hid => Store.hasReady_of_map
      (f := fun g => { g with staged := g.staged - namesOf set.edits g.id }) rfl (fun _ => ⟨rfl, rfl⟩)
      (h.ready_of_moved hsched hm hne hid))
  rw [List.nil_append, List.map_snd_zip (Nat.le_of_eq hlength.symm)] at hmoves
  have hstore : (s.applySet f set).store = (State.activeMoves
      { s with comp := s.comp.apply set.edits, store := s.store.released set.edits } f
      (s.comp.wins.map (·.segment)) ((s.comp.writeAll set.edits).wins.map (·.segment))).store := by
    simp only [State.applySet, State.reportApplied_store, Store.releaseStaged_eq_released, Compositor.apply_wins]
  have hcomp : (s.applySet f set).comp = s.comp.apply set.edits := by simp [State.applySet, State.activeMoves_frame]
  have hcset : (s.applySet f set).cset = { s.cset with scheduled := none, lastApp := some f } := by
    simp [State.applySet, State.activeMoves_frame]
  rw [State.Exact, State.uses, State.allEdits, hcset, hcomp, hstore, Compositor.apply_wins,
    State.activeMoves_keeps (part := Store.queue) (fun _ _ _ => rfl) (fun _ _ => rfl)]
  exact hmoves

/-! ## Resets (R21, R64, R92 to R94) -/

theorem State.uses_of_unnamed {s : State} (hwins : ∀ w ∈ s.comp.wins, w.segment = none)
    (hcset : s.cset = ChangeSet.reset) (id : Nat) :
    s.uses id = { ops := s.store.queue.filter fun op => op.seg = id, shows := 0, claims := 0 } := by
  have hshows : (s.uses id).shows = 0 := by
    refine Decidable.byContradiction fun hne => ?_
    obtain ⟨w, hw, hid⟩ := (s.uses_shows_ne_zero_iff id).mp hne
    exact nomatch (hwins w hw).symm.trans hid
  have hclaims : (s.uses id).claims = 0 := by
    show namesOf s.allEdits id = 0
    rw [State.allEdits, hcset]
    rfl
  calc s.uses id = { ops := s.store.queue.filter fun op => op.seg = id, shows := (s.uses id).shows,
                     claims := (s.uses id).claims } := rfl
    _ = _ := by rw [hshows, hclaims]

theorem State.overlayReset_exact {s : State} (h : s.Exact) (path : ResetPath) : (s.overlayReset path).Exact := by
  have huses : (s.overlayReset path).uses = fun id => { s.uses id with shows := 0, claims := 0 } :=
    funext fun id => State.uses_of_unnamed Compositor.reset_wins_unnamed rfl id
  rw [State.Exact, huses]
  exact DirExact.overlayReset h

/-- A part without segments, operations, edits and named windows. -/
theorem State.exact_of_empty {s : State} (hdir : s.store.dir = []) (hqueue : s.store.queue = [])
    (hwins : ∀ w ∈ s.comp.wins, w.segment = none) (hcset : s.cset = ChangeSet.reset) : s.Exact := by
  have huses (id : Nat) : s.uses id = .none := by
    rw [State.uses_of_unnamed hwins hcset, hqueue]
    rfl
  rw [State.Exact, hdir]
  exact ⟨rfl, nofun, fun id hne => absurd (huses id) hne⟩

theorem State.resetEffect_exact {s : State} (h : s.Exact) (path : ResetPath) : (s.resetEffect path).Exact := by
  unfold State.resetEffect
  split
  · exact State.overlayReset_exact h path
  · exact State.exact_of_empty (Store.fullReset_dir _) (Store.fullReset_queue _) Compositor.reset_wins_unnamed rfl
  · exact h

/-! ## Completions (R77, R81) -/

/-- The operation at the head of the queue completes, with the change to its segment's record. -/
theorem State.Exact.dequeue {s t : State} (h : s.Exact) {op : StoreOp} {rest : List StoreOp}
    (hqueue : s.store.queue = op :: rest) {f : Segment → Segment} (hid : ∀ r, (f r).id = r.id)
    (hrec : ∀ (g : Segment) (u : Uses), g.Exact { u with ops := op :: u.ops } → (f g).Exact u)
    (hdir : t.store.dir = (s.store.update op.seg f).dir) (hrest : t.store.queue = rest)
    (hwins : t.comp.wins = s.comp.wins) (hcset : t.cset = s.cset) : t.Exact := by
  have hbefore : s.uses = usesOf (op :: rest) (s.comp.wins.map (·.segment)) s.allEdits := by
    rw [State.uses, hqueue]
  have hafter : t.uses = usesOf rest (s.comp.wins.map (·.segment)) s.allEdits := by
    rw [State.uses, hrest, hwins, State.allEdits, hcset, State.allEdits]
  rw [State.Exact, hbefore] at h
  obtain ⟨g, hg, hexact⟩ := h.seg_of_used (st := s.store) (id := op.seg) fun hnone =>
    absurd (congrArg Uses.ops (usesOf_head_same rest op _ _ ▸ hnone)) (List.cons_ne_nil _ _)
  rw [usesOf_head_same] at hexact
  rw [State.Exact, hafter, hdir]
  exact h.update hg hid (fun j hj => (usesOf_head_other _ _ _ _ hj).symm) (hrec g _ hexact)

theorem State.writeCompletion_exact {s : State} (h : s.Exact) : s.writeCompletion.Exact := by
  unfold State.writeCompletion
  split
  · next id ch offset data rest hqueue =>
    refine h.dequeue hqueue (f := fun g => { g with queued := g.queued - 1 }) (fun _ => rfl)
      (fun g u hg => hg.finishWrite rfl) ?_ ?_ (by simp) (by simp)
    · obtain ⟨-, hdir⟩ := s.store.land_lists id offset data
      rw [State.completeWrite_store, Store.dequeue_dir, Store.update_dir, Store.update_dir, hdir]
      rfl
    · rw [State.completeWrite_store, Store.dequeue_queue, Store.land_queue, hqueue, List.tail_cons]
  · exact h

theorem State.verifyCompletion_exact {s : State} (h : s.Exact) : s.verifyCompletion.Exact := by
  unfold State.verifyCompletion
  split
  · next id ch carried rest hqueue =>
    have finished {t : State} {state : SegState} (hstate : state = .ready ∨ state = .loading)
        (check : Option (BitVec 32))
        (hstore : t.store = (s.store.dequeue id).update id fun g => { g with state := state, check := check })
        (hwins : t.comp.wins = s.comp.wins) (hcset : t.cset = s.cset) : t.Exact := by
      rw [Store.update_dequeue] at hstore
      exact h.dequeue hqueue (f := fun g => { g with state := state, queued := g.queued - 1, check := check })
        (fun _ => rfl) (fun g u hg => hg.finishVerify rfl hstate check) (by rw [hstore]; rfl)
        (by rw [hstore, hqueue]; rfl) hwins hcset
    obtain ⟨g, hg, -⟩ := h.seg_of_used (st := s.store) (id := id)
      (usesOf_ne_none_iff.mpr (.inl ⟨_, by rw [hqueue]; exact .head _, rfl⟩))
    simp only [State.completeVerify, hg]
    split
    · exact finished (.inl rfl) (some (s.store.checkOf g)) (by simp only [State.offerNotice_store, State.finishBulk_store]) (by simp) (by simp)
    · exact finished (.inr rfl) none (by simp only [State.finishBulk_store]) (by simp) (by simp)
  · exact h

/-! ## The laws kept -/

theorem State.Act.keeps_exact (s t : State) (a : s.Act True t) (h : s.Exact) : t.Exact := by
  cases a with
  | still ht => exact h.still ht
  | owner _ k ch p => exact State.dispatch_exact h k ch p
  | applied f set hsched => exact State.applySet_exact h f hsched
  | reset path => exact State.resetEffect_exact h path
  | written _ => exact State.writeCompletion_exact h
  | verified => exact State.verifyCompletion_exact h
  | hardReset _ strap => exact State.exact_of_empty rfl rfl Compositor.reset_wins_unnamed rfl

/-- Settles O8: the four laws are that the directory is exact, and each act of a step keeps it so. -/
theorem referenceCountsExact : Obligations.ReferenceCountsExact := by
  refine ⟨Store.opLaw_iff, fun _ _ _ _ _ => ⟨rfl, rfl⟩, State.namesLaw_iff, State.countLaw_iff, ?_⟩
  intro s t hrise hop hnames hcount hstep
  exact State.exact_iff.mp ((step_acts hstep).keeps State.Act.keeps_exact (State.exact_of_laws hrise hop hnames hcount))

end Sys2Proof.Machine

namespace Sys2Proof.Machine

/-! ## SEG_CREATE (R71, R72) -/

theorem insertSeg_find (g : Segment) (dir : List Segment) (hnew : ∀ h ∈ dir, h.id ≠ g.id) (id : Nat) :
    (insertSeg g dir).find? (fun h => h.id == id) = if id = g.id then some g else dir.find? fun h => h.id == id := by
  induction dir with
  | nil =>
    by_cases hid : id = g.id
    · simp [insertSeg, hid]
    · simp [insertSeg, hid, Ne.symm hid]
  | cons d ds ih =>
    obtain ⟨hd, hds⟩ := List.forall_mem_cons.mp hnew
    unfold insertSeg
    split
    · by_cases hid : id = g.id
      · simp [hid]
      · rw [List.find?_cons_of_neg (by simpa using Ne.symm hid), if_neg hid]
    · by_cases hid : id = g.id
      · rw [List.find?_cons_of_neg (by simpa [hid] using hd), ih hds, if_pos hid, if_pos hid]
      · rw [List.find?_cons, List.find?_cons, ih hds, if_neg hid, if_neg hid]

section Create

variable {st : Store} {id length : Nat}

/-- After a creation, the new record stands under its id, and every other record under its own. -/
theorem Store.create_seg (hnew : st.seg id = none) (j : Nat) : (st.create id length).seg j =
    if j = id then some (.created id length (st.freeList.take (blocksFor length))) else st.seg j := by
  rw [Store.seg, Store.create_dir_eq, insertSeg_find _ _ ((st.seg_eq_none_iff id).mp hnew)]
  rfl

theorem Store.create_dir_length : (st.create id length).dir.length = st.dir.length + 1 :=
  (insertSeg_perm _ st.dir).length_eq

/-- The blocks taken read 0, and every other byte as before (R72). -/
theorem Store.create_read (a : Nat) : (st.create id length).mem.read a =
    if a / 512 ∈ st.freeList.take (blocksFor length) then 0 else st.mem.read a := by
  rw [Store.create_mem]
  exact Memory.read_zeroBlocks _ _ _

end Create

section TakeSegCreate

variable {v : State} {p : List Byte}

/-- The fields of a SEG_CREATE payload lie in the ranges of R71. -/
def segCreateFits (p : List Byte) : Prop := 1 ≤ u4 p 0 ∧ u4 p 0 ≤ 255 ∧ 1 ≤ u4 p 4 ∧ u4 p 4 ≤ 2097152

theorem segCreateChecks_pass (h : segCreateFits p) : firstBad (segCreateChecks p) = none := by
  obtain ⟨hid, hid', hlength, hlength'⟩ := h
  exact firstBad_eq_none (by simp [segCreateChecks, hid, hid', hlength, hlength'])

theorem State.takeSegCreate_of_exists (h : segCreateFits p) {g : Segment} (hg : v.store.seg (u4 p 0) = some g) :
    v.takeSegCreate p = (v, .answer .exists_ (be4 (u4 p 0) ++ [byte g.state.code])) := by
  simp only [State.takeSegCreate, segCreateChecks_pass h, hg, segRefusal, Store.seg_id hg]

theorem State.takeSegCreate_of_full (h : segCreateFits p) (hnew : v.store.seg (u4 p 0) = none)
    (hfull : 64 ≤ v.store.dir.length) : v.takeSegCreate p = (v, .answer .directoryFull []) := by
  simp only [State.takeSegCreate, segCreateChecks_pass h, hnew]
  exact if_pos hfull

theorem State.takeSegCreate_of_noSpace (h : segCreateFits p) (hnew : v.store.seg (u4 p 0) = none)
    (hdir : v.store.dir.length < Config.maxSegments) (hspace : v.store.freeList.length < blocksFor (u4 p 4)) :
    v.takeSegCreate p =
      (v, .answer .noSpace (be2 (blocksFor (u4 p 4)) ++ be2 v.store.freeList.length)) := by
  simp only [State.takeSegCreate, segCreateChecks_pass h, hnew]
  rw [if_neg (Nat.not_le.mpr hdir), if_pos hspace]

theorem State.takeSegCreate_of_room (h : segCreateFits p) (hnew : v.store.seg (u4 p 0) = none)
    (hdir : v.store.dir.length < Config.maxSegments) (hspace : blocksFor (u4 p 4) ≤ v.store.freeList.length) :
    v.takeSegCreate p =
      ({ v with store := v.store.create (u4 p 0) (u4 p 4) }, .answer .ok (be4 (u4 p 0) ++ be4 (u4 p 4)
        ++ be2 (blocksFor (u4 p 4)) ++ be2 (v.store.freeList.length - blocksFor (u4 p 4)))) := by
  simp only [State.takeSegCreate, segCreateChecks_pass h, hnew]
  rw [if_neg (Nat.not_le.mpr hdir), if_neg (Nat.not_lt.mpr hspace), Store.create_freeList, List.length_drop]

end TakeSegCreate

/-- Settles O28: the owner's checks in their order; past them, what a creation makes of the store. -/
theorem segmentCreated : Obligations.SegmentCreated := by
  intro s seq p u id length k hready hlen hid hid' hlength hlength'
  have hfits : segCreateFits p := ⟨hid, hid', hlength, hlength'⟩
  have answers {t : State} {code : Code} {payload : List Byte}
      (h : (u.accepting 0 seq).takeSegCreate p = (t.accepting 0 seq, .answer code payload)) :
      exec (.segCreate 0 seq p) s = .next (t.answered 0 seq 0x10 code payload) :=
    exec_answered (k := .segCreate) hready (by decide) rfl (by simp [Kind.lengthAllowed, hlen]) (by omega) h
  refine ⟨fun g hg => answers (State.takeSegCreate_of_exists (v := u.accepting 0 seq) hfits hg),
    fun hnew hfull => answers (State.takeSegCreate_of_full (v := u.accepting 0 seq) hfits hnew hfull),
    fun hnew hdir hspace => answers (State.takeSegCreate_of_noSpace (v := u.accepting 0 seq) hfits hnew hdir hspace),
    fun hnew hdir hspace => ⟨u.store.create id length, ?_, u.store.create_freeList id length, rfl, ?_, fun j hj => ?_,
      Store.create_dir_length, Store.create_read⟩⟩
  · exact answers (t := { u with store := _ })
      (State.takeSegCreate_of_room (v := u.accepting 0 seq) hfits hnew hdir hspace)
  · exact (Store.create_seg hnew id).trans (if_pos rfl)
  · exact (Store.create_seg hnew j).trans (if_neg hj)

/-! ## SEG_DELETE (R83, R84) -/

section TakeSegDelete

variable {v : State} {p : List Byte} {g : Segment}

theorem State.takeSegDelete_of_missing (h : v.store.seg (u4 p 0) = none) :
    v.takeSegDelete p = (v, .answer .noSegment (be4 (u4 p 0))) := by
  simp only [State.takeSegDelete, h, noSegment]

theorem State.takeSegDelete_of_busy (hg : v.store.seg (u4 p 0) = some g) (hbusy : g.state = .verifying ∨ 0 < g.queued) :
    v.takeSegDelete p = (v, .answer .busy (be4 (u4 p 0) ++ [byte g.state.code, byte g.queued])) := by
  simp only [State.takeSegDelete, hg, if_pos hbusy, storeBusy, Store.seg_id hg]

variable (hg : v.store.seg (u4 p 0) = some g) (hstate : g.state ≠ .verifying) (hqueued : g.queued = 0)
include hg hstate hqueued

theorem State.takeSegDelete_of_inUse (hstaged : 0 < g.staged) :
    v.takeSegDelete p = (v, .answer .inUse [byte g.staged]) := by
  simp only [State.takeSegDelete, hg]
  rw [if_neg (by simp [hstate, hqueued]), if_pos hstaged]

variable (hstaged : g.staged = 0)
include hstaged

theorem State.takeSegDelete_of_retiring (hretiring : g.state = .retiring) :
    v.takeSegDelete p = (v, .answer .retiring (be4 (u4 p 0))) := by
  simp only [State.takeSegDelete, hg, Store.seg_id hg]
  rw [if_neg (by simp [hstate, hqueued]), if_neg (by simp [hstaged]), if_pos hretiring]

variable (hkept : g.state ≠ .retiring)
include hkept

theorem State.takeSegDelete_of_unnamed (hactive : g.active = 0) :
    v.takeSegDelete p =
      ({ v with store := { v.store with
          freeList := v.store.freeList ++ g.blocks
          dir := v.store.dir.filter fun h => h.id != u4 p 0 } },
        .answer .ok (be4 (u4 p 0) ++ [0] ++ be2 (v.store.freeList.length + g.blocks.length))) := by
  simp only [State.takeSegDelete, hg, Store.free, Store.seg_id hg]
  rw [if_neg (by simp [hstate, hqueued]), if_neg (by simp [hstaged]), if_neg hkept, if_pos hactive,
    List.length_append]

theorem State.takeSegDelete_of_named (hactive : 0 < g.active) :
    v.takeSegDelete p =
      ({ v with store := v.store.retag (u4 p 0) fun g => { g with state := .retiring } },
        .answer .ok (be4 (u4 p 0) ++ [1] ++ be2 g.active)) := by
  simp only [State.takeSegDelete, hg, Store.update_eq_retag, Store.seg_id hg]
  rw [if_neg (by simp [hstate, hqueued]), if_neg (by simp [hstaged]), if_neg hkept, if_neg (Nat.ne_of_gt hactive)]

end TakeSegDelete

/-- Settles O33: the owner's checks in their order; past them, the active count decides. -/
theorem segmentDeleted : Obligations.SegmentDeleted := by
  intro s seq p u id hready hlen
  have answers {t : State} {code : Code} {payload : List Byte}
      (h : (u.accepting 0 seq).takeSegDelete p = (t.accepting 0 seq, .answer code payload)) :
      exec (.segDelete 0 seq p) s = .next (t.answered 0 seq 0x13 code payload) :=
    exec_answered (k := .segDelete) hready (by decide) rfl (by simp [Kind.lengthAllowed, hlen]) (by omega) h
  have hkept {g : Segment} (h : g.state = .loading ∨ g.state = .ready) :
      g.state ≠ .verifying ∧ g.state ≠ .retiring := by
    rcases h with h | h <;> simp [h]
  refine ⟨fun hnone => answers (State.takeSegDelete_of_missing (v := u.accepting 0 seq) hnone), fun g hg =>
    ⟨fun hbusy => answers (State.takeSegDelete_of_busy (v := u.accepting 0 seq) hg hbusy),
     fun hstate hqueued hstaged =>
      answers (State.takeSegDelete_of_inUse (v := u.accepting 0 seq) hg hstate hqueued hstaged),
     fun hretiring hqueued hstaged => answers (State.takeSegDelete_of_retiring (v := u.accepting 0 seq) hg
      (by simp [hretiring]) hqueued hstaged hretiring), ?_, ?_⟩⟩
  · intro hstate hqueued hstaged hactive
    obtain ⟨hverifying, hretiring⟩ := hkept hstate
    exact answers (t := { u with store := _ }) (State.takeSegDelete_of_unnamed (v := u.accepting 0 seq) hg hverifying
      hqueued hstaged hretiring hactive)
  · intro hstate hqueued hstaged hactive
    obtain ⟨hverifying, hretiring⟩ := hkept hstate
    exact answers (t := { u with store := _ }) (State.takeSegDelete_of_named (v := u.accepting 0 seq) hg hverifying
      hqueued hstaged hretiring hactive)

/-! ## SEG_WRITE and SEG_CLOSE (R75 to R77, R79) -/

section Bulk

variable {v : State} {ch : Chan} {p : List Byte} {g : Segment}

/-- The refusal that SEG_WRITE and SEG_CLOSE share: no segment, or one that is not LOADING (R76, R79). -/
def Store.bulkRefusal (st : Store) (id : Nat) : Option Reply :=
  match st.seg id with
  | none => some (noSegment id)
  | some g =>
    match g.state with
    | .loading => none
    | .verifying => some (storeBusy g)
    | .ready => some (segRefusal .closed g)
    | .retiring => some (segRefusal .closed g)

theorem Store.bulkRefusal_of_missing {st : Store} {id : Nat} (h : st.seg id = none) :
    st.bulkRefusal id = some (.answer .noSegment (be4 id)) := by
  simp only [Store.bulkRefusal, h, noSegment]

theorem Store.bulkRefusal_of_verifying {st : Store} {id : Nat} (h : st.seg id = some g) (hstate : g.state = .verifying) :
    st.bulkRefusal id = some (.answer .busy (be4 id ++ [1, byte g.queued])) := by
  simp only [Store.bulkRefusal, h, hstate, storeBusy, Store.seg_id h]
  rfl

/-- A READY or RETIRING segment takes no more operations. -/
theorem Store.bulkRefusal_of_closed {st : Store} {id : Nat} (h : st.seg id = some g)
    (hstate : g.state = .ready ∨ g.state = .retiring) :
    st.bulkRefusal id = some (.answer .closed (be4 id ++ [byte g.state.code])) := by
  rcases hstate with hstate | hstate
  · simp only [Store.bulkRefusal, h, hstate, segRefusal, Store.seg_id h]
  · simp only [Store.bulkRefusal, h, hstate, segRefusal, Store.seg_id h]

theorem State.takeSegWrite_of_refusal {r : Reply} (h : v.store.bulkRefusal (u4 p 0) = some r) :
    v.takeSegWrite ch p = (v, r) := by
  cases hseg : v.store.seg (u4 p 0) with
  | none =>
    simp only [Store.bulkRefusal, hseg, Option.some.injEq] at h
    simp only [State.takeSegWrite, hseg, h]
  | some g =>
    cases hstate : g.state with
    | loading => simp [Store.bulkRefusal, hseg, hstate] at h
    | _ =>
      simp only [Store.bulkRefusal, hseg, hstate, Option.some.injEq] at h
      simp only [State.takeSegWrite, hseg, hstate, h]

theorem State.takeSegClose_of_refusal {r : Reply} (h : v.store.bulkRefusal (u4 p 0) = some r) :
    v.takeSegClose ch p = (v, r) := by
  cases hseg : v.store.seg (u4 p 0) with
  | none =>
    simp only [Store.bulkRefusal, hseg, Option.some.injEq] at h
    simp only [State.takeSegClose, hseg, h]
  | some g =>
    cases hstate : g.state with
    | loading => simp [Store.bulkRefusal, hseg, hstate] at h
    | _ =>
      simp only [Store.bulkRefusal, hseg, hstate, Option.some.injEq] at h
      simp only [State.takeSegClose, hseg, hstate, h]

variable (hg : v.store.seg (u4 p 0) = some g) (hloading : g.state = .loading)
include hg hloading

theorem State.takeSegWrite_of_range (hrange : g.length < u4 p 4 + (p.length - 8)) :
    v.takeSegWrite ch p = (v, .answer .writeRange (be4 g.length)) := by
  simp only [State.takeSegWrite, hg, hloading, List.length_drop, if_pos hrange]

theorem State.takeSegWrite_of_fits (hrange : u4 p 4 + (p.length - 8) ≤ g.length) :
    v.takeSegWrite ch p =
      ({ v with store := { v.store.retag (u4 p 0) (fun g => { g with queued := g.queued + 1 }) with
          queue := v.store.queue ++ [.write (u4 p 0) ch (u4 p 4) (p.drop 8)] } }, .queued) := by
  simp only [State.takeSegWrite, hg, hloading, List.length_drop, if_neg (Nat.not_lt.mpr hrange), Store.enqueue,
    Store.update_eq_retag]

theorem State.takeSegClose_of_loading :
    v.takeSegClose ch p =
      ({ v with store := { v.store.retag (u4 p 0) (fun g => { g with state := .verifying, queued := g.queued + 1 }) with
          queue := v.store.queue ++ [.verify (u4 p 0) ch (BitVec.ofNat 32 (u4 p 4))] } }, .queued) := by
  have hclosed := v.store.enqueue_update (u4 p 0) (f := fun g => { g with state := .verifying }) (fun _ => rfl)
    (.verify (u4 p 0) ch (BitVec.ofNat 32 (u4 p 4)))
  rw [Store.update_eq_retag v.store _ fun g => { g with state := .verifying, queued := g.queued + 1 }] at hclosed
  simp only [State.takeSegClose, hg, hloading, hclosed]

end Bulk

/-- The two bulk messages, with the lengths they may have (R165). -/
def Kind.isBulk (k : Kind) (p : List Byte) : Prop :=
  (k = .segWrite ∧ 9 ≤ p.length ∧ p.length ≤ 8192) ∨ (k = .segClose ∧ p.length = 8)

/-- A bulk message on a channel that takes it passes the generic checks. -/
theorem exec_bulk {s : State} {ch : Chan} {seq : SeqNo} {p : List Byte} {k : Kind} (hch : ch ≠ 0)
    (hready : s.settle.readyFor ch seq) (hk : k.isBulk p) :
    exec (k.command ch seq p) s = .next (((s.settle.accepting ch seq).dispatch k ch p).1.carryOut ch seq k.code
      ((s.settle.accepting ch seq).dispatch k ch p).2) := by
  rw [exec_command]
  obtain ⟨rfl, hlo, hhi⟩ | ⟨rfl, hlen⟩ := hk
  · rw [State.receive_accepted hready (by decide) ((Kind.onChannel_iff .segWrite ch).mpr hch)
      ((Kind.lengthAllowed_iff .segWrite p).mpr ⟨hlo, hhi⟩) hhi]
  · rw [State.receive_accepted hready (by decide) ((Kind.onChannel_iff .segClose ch).mpr hch)
      ((Kind.lengthAllowed_iff .segClose p).mpr hlen) (by omega)]

/-- Settles O30: the refusals the two kinds share, and the range check of a write. -/
theorem bulkRefused : Obligations.BulkRefused := by
  intro s ch seq p k u id hch hready hk
  have answers {code : Code} {payload : List Byte}
      (h : (u.accepting ch seq).dispatch k ch p = (u.accepting ch seq, .answer code payload)) :
      exec (k.command ch seq p) s = .next (u.answered ch seq k.code code payload) := by
    rw [exec_bulk hch hready hk, h]
    exact congrArg Host.Outcome.next (u.accepting_answerWith ch seq k.code code payload)
  have refuses {code : Code} {payload : List Byte} (h : u.store.bulkRefusal id = some (.answer code payload)) :
      exec (k.command ch seq p) s = .next (u.answered ch seq k.code code payload) := by
    refine answers ?_
    obtain ⟨rfl, -⟩ | ⟨rfl, -⟩ := hk
    · exact State.takeSegWrite_of_refusal (v := u.accepting ch seq) h
    · exact State.takeSegClose_of_refusal (v := u.accepting ch seq) h
  refine ⟨fun hnone => refuses (Store.bulkRefusal_of_missing hnone),
    fun g hg hstate => refuses (Store.bulkRefusal_of_verifying hg hstate), fun g hg hstate => ?_,
    fun g hg hstate => ?_, ?_⟩
  · have hclosed := Store.bulkRefusal_of_closed hg (.inl hstate)
    rw [hstate] at hclosed
    exact refuses hclosed
  · have hclosed := Store.bulkRefusal_of_closed hg (.inr hstate)
    rw [hstate] at hclosed
    exact refuses hclosed
  · rintro g hg hloading rfl hrange
    exact answers (State.takeSegWrite_of_range (v := u.accepting ch seq) hg hloading hrange)

/-- A queued operation leaves its channel EXECUTING, with the reservation that the message was given (R152). -/
theorem State.accepting_queued (u : State) (ch : Chan) (seq : SeqNo) (kind : Byte) (st : Store) :
    State.carryOut { u.accepting ch seq with store := st } ch seq kind .queued =
      { u with
        store := st
        pkt := { u.pkt with reserved := ch :: u.pkt.reserved }
        chn := u.chn.set ch { u.chan ch with state := .executing, last := seq, assembly := none } } := by
  simp [State.carryOut, State.setChan, State.accepting, State.reserve, State.advance, State.dropAssembly, State.chan]

/-- Settles O29: both owners queue the operation, and the reply is carried out. -/
theorem bulkQueued : Obligations.BulkQueued := by
  intro s ch seq p g u id executing hch hready hg hloading
  have queues {k : Kind} {st : Store} (hk : k.isBulk p)
      (h : (u.accepting ch seq).dispatch k ch p = ({ u.accepting ch seq with store := st }, .queued)) :
      exec (k.command ch seq p) s = .next { executing with store := st } := by
    rw [exec_bulk hch hready hk, h]
    exact congrArg Host.Outcome.next (u.accepting_queued ch seq k.code st)
  exact ⟨fun hlo hhi hrange => queues (.inl ⟨rfl, hlo, hhi⟩)
      (State.takeSegWrite_of_fits (v := u.accepting ch seq) hg hloading hrange),
    fun hlen => queues (.inr ⟨rfl, hlen⟩) (State.takeSegClose_of_loading (v := u.accepting ch seq) hg hloading)⟩

/-! ## QUERY_SEGMENT and QUERY_DIRECTORY (R90, R91) -/

section Queries

variable {v : State} {p : List Byte} {g : Segment}

theorem State.takeQuerySegment_of_missing (h : v.store.seg (u4 p 0) = none) :
    v.takeQuerySegment p = (v, .answer .noSegment (be4 (u4 p 0))) := by
  simp only [State.takeQuerySegment, h, noSegment]

/-- A block list of one block, or of more, by its first and its last. -/
theorem blocks_ends {blocks middle : List Nat} {first last : Nat}
    (h : blocks = [first] ∧ last = first ∨ blocks = first :: middle ++ [last]) :
    blocks.headD 0 = first ∧ blocks.getLastD 0 = last := by
  rcases h with ⟨rfl, rfl⟩ | rfl
  · exact ⟨rfl, rfl⟩
  · exact ⟨rfl, List.getLastD_concat ..⟩

/-- The check value of a record with its presence byte (R195). -/
def checkBytes (check : Option (BitVec 32)) : List Byte :=
  match check with
  | some v => 1 :: be4 v.toNat
  | none => [0, 0, 0, 0, 0]

theorem State.takeQuerySegment_of_some (hg : v.store.seg (u4 p 0) = some g) {first last : Nat}
    (hfirst : g.blocks.headD 0 = first) (hlast : g.blocks.getLastD 0 = last) :
    v.takeQuerySegment p = (v, .answer .ok (be4 (u4 p 0) ++ [byte g.state.code] ++ be4 g.length
      ++ be2 g.blocks.length ++ be2 first ++ be2 last ++ [byte g.active, byte g.staged, byte g.queued]
      ++ checkBytes g.check)) := by
  rw [← hfirst, ← hlast, ← Store.seg_id hg]
  unfold State.takeQuerySegment
  rw [hg]
  rfl

end Queries

/-- Settles O59: both queries are accepted, and their owners answer from the directory and change nothing. -/
theorem storeQueried : Obligations.StoreQueried := by
  refine ⟨rfl, fun st id => ⟨st.seg_eq_none_iff id, fun g hg => ⟨Store.seg_mem hg, Store.seg_id hg⟩, ?_⟩, ?_⟩
  · rintro hrise g hg rfl
    exact Store.seg_of_mem hrise hg
  intro s seq p u hready
  have answers {code : Code} {payload : List Byte} (hlen : p.length = 4)
      (h : (u.accepting 0 seq).takeQuerySegment p = (u.accepting 0 seq, .answer code payload)) :
      exec (.querySegment 0 seq p) s = .next (u.answered 0 seq 0x1B code payload) :=
    exec_answered (k := .querySegment) hready (by decide) rfl (by simp [Kind.lengthAllowed, hlen]) (by omega) h
  refine ⟨fun hlen hnone => answers hlen (State.takeQuerySegment_of_missing (v := u.accepting 0 seq) hnone),
    fun g first last middle hlen hg hblocks => ?_, ?_⟩
  · obtain ⟨hfirst, hlast⟩ := blocks_ends hblocks
    exact answers hlen (State.takeQuerySegment_of_some (v := u.accepting 0 seq) hg hfirst hlast)
  · rintro rfl
    exact exec_answered (k := .queryDirectory) hready (by decide) rfl rfl (by decide) rfl

end Sys2Proof.Machine

namespace Sys2Proof.Machine

/-! ## The release of a reference (R67, R86, R87) -/

/-- Settles O34: the owner's two cases. -/
theorem lastReferenceFrees : Obligations.LastReferenceFrees := by
  rintro s f id g hg
  constructor
  · intro hretiring hactive
    simp only [State.activeRelease, hg]
    rw [if_pos ⟨hretiring, by rw [hactive]⟩, Store.free, Store.seg_id hg]
    rfl
  · intro hmore
    have hnotLast : ¬ (g.state = .retiring ∧ g.active - 1 = 0) := by
      rintro ⟨hretiring, hlast⟩
      rcases hmore with hkept | htwo
      · exact hkept hretiring
      · omega
    simp only [State.activeRelease, hg]
    rw [if_neg hnotLast, Store.update_eq_retag]

/-! ## A bulk channel leaves EXECUTING (R75, R152) -/

theorem State.finishBulk_eq (v : State) (ch : Chan) (kind : Byte) (code : Code) (payload : List Byte) :
    v.finishBulk ch kind code payload =
      { v with
        pkt := { v.pkt with
          reserved := v.pkt.reserved.erase ch
          filled := v.pkt.filled ++ [{ packet := v.packet ch (v.chan ch).last kind code payload, marked := false,
                                       fillTime := v.pkt.fillClock }]
          fillClock := v.pkt.fillClock + 1 }
        chn := v.chn.set ch { v.chan ch with
          state := .idle, cache := some (v.packet ch (v.chan ch).last kind code payload) } } := by
  simp [State.finishBulk, State.answerWith, State.fillReserved, State.setChan, State.chan, PacketUnit.fill]

/-! ## The bytes of a segment in the memory (R66, R69, R77) -/

theorem segAddr_eq (blocks : List Nat) (a : Nat) :
    segAddr blocks a = (blocks[a / 512]?).map fun b => 512 * b + a % 512 := by
  simp only [segAddr, Config.blockBytes, Nat.mul_comm]

theorem segRead_of_addr {blocks : List Nat} {a addr : Nat} (h : segAddr blocks a = some addr) (mem : Memory) :
    segRead mem blocks a = mem.read addr := by
  simp only [segRead, h]

/-- Two bytes of a segment stand at two addresses, since no block is listed twice. -/
theorem segAddr_inj {blocks : List Nat} (hnodup : blocks.Nodup) {a b addr : Nat} (ha : segAddr blocks a = some addr)
    (hb : segAddr blocks b = some addr) : a = b := by
  rw [segAddr_eq] at ha hb
  obtain ⟨i, hi, ha⟩ := Option.map_eq_some_iff.mp ha
  obtain ⟨j, hj, hb⟩ := Option.map_eq_some_iff.mp hb
  have hblock : i = j := by omega
  have hlt := (List.getElem?_eq_some_iff.mp hi).1
  have hindex : a / 512 = b / 512 := (List.getElem?_inj hlt hnodup).mp (by rw [hi, hj, hblock])
  omega

theorem segAddr_of_lt {blocks : List Nat} {a : Nat} (h : a < 512 * blocks.length) :
    ∃ addr, segAddr blocks a = some addr := by
  rw [segAddr_eq, List.getElem?_eq_getElem (Nat.div_lt_of_lt_mul h)]
  exact ⟨_, rfl⟩

/-- Bytes written to a segment read back at their offsets. -/
theorem segRead_segWriteBytes {blocks : List Nat} (hnodup : blocks.Nodup) {vs : List Byte} {m : Memory} {a : Nat}
    (hwf : m.wf = true) (hroom : a + vs.length ≤ 512 * blocks.length) {i : Nat} {v : Byte} (hv : vs[i]? = some v) :
    segRead (segWriteBytes m blocks a vs) blocks (a + i) = v := by
  induction vs generalizing m a i with
  | nil => exact nomatch hv
  | cons w ws ih =>
    rw [List.length_cons] at hroom
    cases i with
    | zero =>
      obtain rfl : w = v := Option.some.inj hv
      obtain ⟨addr, haddr⟩ := segAddr_of_lt (blocks := blocks) (a := a) (by omega)
      have hrest : ∀ j < ws.length, segAddr blocks (a + 1 + j) ≠ some addr := fun j _ h => by
        have := segAddr_inj hnodup h haddr
        omega
      rw [Nat.add_zero, segRead_of_addr haddr, segWriteBytes, segWriteBytes_read_other _ _ _ _ _ hrest, segWriteByte,
        haddr]
      exact Memory.read_write_same addr w hwf
    | succ i =>
      rw [segWriteBytes, show a + (i + 1) = a + 1 + i by omega]
      exact ih (segWriteByte_wf blocks a w hwf) (by omega) hv

theorem Memory.read_of_mem {m : Memory} (hwf : m.wf = true) {a : Nat} {v : Byte} (h : (a, v) ∈ m) : m.read a = v := by
  induction m with
  | nil => exact nomatch h
  | cons c cs ih =>
    obtain ⟨-, hrise, hwf⟩ := (Memory.wf_cons c cs).mp hwf
    rw [Memory.read_cons]
    rcases List.mem_cons.mp h with rfl | h
    · exact if_pos rfl
    · rw [if_neg (Nat.ne_of_lt (hrise _ h))]
      exact ih hwf h

theorem Memory.read_of_unlisted {m : Memory} {a : Nat} (h : ∀ c ∈ m, c.1 ≠ a) : m.read a = 0 := by
  rw [Memory.read, List.find?_eq_none.mpr fun c hc => by simpa using h c hc]

/-! ## SEG_WRITE_COMPLETION (R77) -/

/-- The write at the head of the queue completed: the bytes landed, and the channel answered OK. -/
theorem State.writeCompletion_of_write {u : State} {id : Nat} {ch : Chan} {offset : Nat} {data : List Byte}
    {rest : List StoreOp} {g : Segment} (hqueue : u.store.queue = .write id ch offset data :: rest)
    (hg : u.store.seg id = some g) : u.writeCompletion =
      State.finishBulk { u with store := { u.store.retag id (fun g => { g with queued := g.queued - 1 }) with
          mem := segWriteBytes u.store.mem g.blocks offset data, queue := rest } }
        ch Kind.segWrite.code .ok (be4 id ++ be4 offset ++ be2 data.length) := by
  unfold State.writeCompletion
  simp only [hqueue, State.completeWrite, Store.land, hg, Store.dequeue, Store.update_eq_retag, List.tail_cons]
  rfl

/-- Settles O31: the bytes land byte by byte through the block list, and the channel is answered. -/
theorem writeLands : Obligations.WriteLands := by
  refine ⟨segAddr_eq, fun mem _ _ _ h => segRead_of_addr h mem,
    fun mem a hwf => ⟨fun v h => Memory.read_of_mem hwf h, Memory.read_of_unlisted⟩, ?_⟩
  intro s id ch offset data rest g u packet hqueue hg
  refine ⟨segWriteBytes u.store.mem g.blocks offset data, ?_, fun a ha => ?_, fun hwf hnodup hroom i v hv => ?_⟩
  · refine congrArg Host.Outcome.next ?_
    rw [State.writeCompletion_of_write hqueue hg, State.finishBulk_eq]
    rfl
  · exact segWriteBytes_read_other g.blocks data u.store.mem offset a ha
  · exact segRead_segWriteBytes hnodup hwf hroom hv

/-! ## The CRC-32 (R80) -/

/-- The register of a CRC-32, before its reflection and inversion at the end. -/
def crcRegister (bs : List Byte) : BitVec 32 := bs.foldl (fun c b => crcByte 0x04C11DB7 c b.reverse) 0xFFFFFFFF

theorem crc32_register (bs : List Byte) : (crc32 bs ^^^ 0xFFFFFFFF).reverse = crcRegister bs := by
  show ((crcRegister bs).reverse ^^^ 0xFFFFFFFF ^^^ 0xFFFFFFFF).reverse = _
  rw [BitVec.xor_assoc, BitVec.xor_self, BitVec.xor_zero, BitVec.reverse_reverse_eq]

theorem crcRegister_append (bs : List Byte) (b : Byte) : crcRegister (bs ++ [b]) =
    (List.range 8).foldl (fun c _ => if c.msb then (c <<< 1) ^^^ 0x04C11DB7 else c <<< 1)
      (crcRegister bs ^^^ (b.reverse.setWidth 32 <<< 24)) := by
  rw [crcRegister, List.foldl_append]
  exact crcBits_eq_foldl 0x04C11DB7 8 (crcRegister bs ^^^ (b.reverse.setWidth 32 <<< 24))

/-! ## VERIFY_COMPLETION (R81) -/

section Verify

variable {u : State} {id : Nat} {ch : Chan} {carried : BitVec 32} {rest : List StoreOp} {g : Segment}

/-- The store after a verify: its segment in the state that the verify decides, with the check value it leaves. -/
def Store.verified (st : Store) (id : Nat) (state : SegState) (check : Option (BitVec 32)) (rest : List StoreOp) :
    Store :=
  { st.retag id (fun g => { g with state := state, queued := g.queued - 1, check := check }) with queue := rest }

theorem Store.checkOf_eq (st : Store) (g : Segment) :
    st.checkOf g = crc32 ((List.range g.length).map fun a => segRead st.mem g.blocks a) := by
  simp only [Store.checkOf, segReadBytes, Nat.zero_add]

theorem Store.verified_eq (hqueue : u.store.queue = .verify id ch carried :: rest) (state : SegState)
    (check : Option (BitVec 32)) :
    ((u.store.dequeue id).update id fun g => { g with state := state, check := check }) =
      u.store.verified id state check rest := by
  rw [Store.update_dequeue, hqueue, Store.update_eq_retag]
  rfl

theorem State.verifyCompletion_of_match (hqueue : u.store.queue = .verify id ch carried :: rest)
    (hg : u.store.seg id = some g) (hmatch : u.store.checkOf g = carried) : u.verifyCompletion =
      ((State.finishBulk { u with store := u.store.verified id .ready (some (u.store.checkOf g)) rest } ch
          Kind.segClose.code .ok (be4 id ++ be4 g.length ++ be4 (u.store.checkOf g).toNat)).offerNotice .segmentReady
        (be4 id ++ be4 g.length ++ be4 (u.store.checkOf g).toNat)) := by
  unfold State.verifyCompletion
  simp only [hqueue, State.completeVerify, hg]
  rw [if_pos hmatch, Store.verified_eq hqueue]

theorem State.verifyCompletion_of_mismatch (hqueue : u.store.queue = .verify id ch carried :: rest)
    (hg : u.store.seg id = some g) (hmatch : u.store.checkOf g ≠ carried) : u.verifyCompletion =
      State.finishBulk { u with store := u.store.verified id .loading none rest } ch Kind.segClose.code .checkMismatch
        (be4 id ++ be4 carried.toNat ++ be4 (u.store.checkOf g).toNat) := by
  unfold State.verifyCompletion
  simp only [hqueue, State.completeVerify, hg]
  rw [if_neg hmatch, Store.verified_eq hqueue]

end Verify

/-- Settles O32: the register byte by byte, and the two outcomes of a verify. -/
theorem verifyCompletes : Obligations.VerifyCompletes := by
  refine ⟨crc32_register [], fun bs b => ?_, ?_⟩
  · simp only [crc32_register]
    exact crcRegister_append bs b
  · intro s id ch carried rest g u computed filledWith report hqueue hg
    have hcomputed : u.store.checkOf g = computed := u.store.checkOf_eq g
    constructor
    · intro hmatch
      refine congrArg Host.Outcome.next ?_
      rw [State.verifyCompletion_of_match hqueue hg (hcomputed.trans hmatch), State.finishBulk_eq, hcomputed]
      rfl
    · intro hmatch
      refine congrArg Host.Outcome.next ?_
      rw [State.verifyCompletion_of_mismatch hqueue hg (hcomputed ▸ hmatch), State.finishBulk_eq, hcomputed]
      rfl

end Sys2Proof.Machine

namespace Sys2Proof.Machine

/-! ## What leaves the bitmap memory alone (R66) -/

theorem Store.releaseStaged_mem (st : Store) (edits : List Edit) : (st.releaseStaged edits).mem = st.mem := by
  rw [Store.releaseStaged_eq_released]
  rfl

theorem State.takeWinStage_mem (s : State) (p : List Byte) : (s.takeWinStage p).1.store.mem = s.store.mem := by
  have claimed (st : Store) (segment : Option Nat) : (st.claimStaged segment).mem = st.mem := by
    cases segment <;> rfl
  unfold State.takeWinStage
  split
  · rfl
  · simp only []
    split
    · rfl
    · have hstage := s.stage_store (.winStage (u1 p 0) (windowOf p))
      split
      · next hs' =>
        rw [hs'] at hstage
        exact (claimed _ _).trans (congrArg Store.mem hstage)
      · rw [hstage]

/-- An owner other than SEG_CREATE's leaves the memory as it was: a write's data land when it completes. -/
theorem State.dispatch_mem (s : State) {k : Kind} (hk : k ≠ .segCreate) (ch : Chan) (p : List Byte) :
    (s.dispatch k ch p).1.store.mem = s.store.mem := by
  cases k with
  | segCreate => exact absurd rfl hk
  | winStage => exact s.takeWinStage_mem p
  | setDiscard =>
    show (s.takeSetDiscard p).1.store.mem = _
    unfold State.takeSetDiscard
    split
    · rfl
    · exact Store.releaseStaged_mem _ _
  | setWithdraw =>
    show (s.takeSetWithdraw p).1.store.mem = _
    unfold State.takeSetWithdraw
    split
    · exact Store.releaseStaged_mem _ _
    · rfl
  | segWrite =>
    show (s.takeSegWrite ch p).1.store.mem = _
    unfold State.takeSegWrite
    simp only []
    repeat' split
    all_goals rfl
  | segClose =>
    show (s.takeSegClose ch p).1.store.mem = _
    unfold State.takeSegClose
    simp only []
    repeat' split
    all_goals rfl
  | segDelete =>
    show (s.takeSegDelete p).1.store.mem = _
    unfold State.takeSegDelete
    repeat' split
    all_goals rfl
  | _ => simp [State.dispatch]

theorem State.applySet_mem (s : State) (f : FrameNo) (set : Scheduled) : (s.applySet f set).store.mem = s.store.mem := by
  simp only [State.applySet, State.reportApplied_store]
  rw [State.activeMoves_keeps (part := Store.mem) (fun _ _ _ => rfl) (fun _ _ => rfl)]
  exact Store.releaseStaged_mem _ _

theorem State.verifyCompletion_mem (s : State) : s.verifyCompletion.store.mem = s.store.mem := by
  unfold State.verifyCompletion
  split
  · unfold State.completeVerify
    split
    · simp only []
      split <;> simp
    · simp
  · rfl

theorem State.resetEffect_mem (s : State) (path : ResetPath) : (s.resetEffect path).store.mem = s.store.mem := by
  unfold State.resetEffect
  split
  · rfl
  · exact Store.fullReset_mem _
  · rfl

/-- An act that is not one of those that store. -/
theorem State.Act.mem_eq {s t : State} (a : s.Act False t) : t.store.mem = s.store.mem := by
  cases a with
  | still h => rw [h.store]
  | owner h => exact h.elim
  | applied f set _ => exact s.applySet_mem f set
  | reset path => exact s.resetEffect_mem path
  | written h => exact h.elim
  | verified => exact s.verifyCompletion_mem
  | hardReset h => exact h.elim

theorem State.Acts.mem_eq {s t : State} (h : s.Acts False t) : t.store.mem = s.store.mem :=
  h.keeps (P := fun u => u.store.mem = s.store.mem) (fun _ _ a hm => a.mem_eq.trans hm) rfl

/-! ### Assemblies that are too long for a SEG_CREATE -/

/-- Every assembly holds a full payload, so the message it becomes is longer than a SEG_CREATE (R140, R146, R165). -/
def State.assembliesFull (s : State) : Prop :=
  ∀ ch a, (s.chan ch).assembly = some a → 1024 ≤ a.frags.flatten.length

theorem State.assembliesFull_of_channelLaw {s : State} (h : s.channelLaw = true) : s.assembliesFull := by
  intro ch a ha
  obtain ⟨-, hlaw⟩ := s.channelLaw_iff.mp h
  obtain ⟨-, hbounds⟩ := hlaw ch
  obtain ⟨hpos, -, hfull⟩ := hbounds a ha
  obtain ⟨f, hf⟩ := List.exists_mem_of_length_pos hpos
  calc 1024 = f.length := (hfull f hf).symm
    _ ≤ a.frags.flatten.length := (List.sublist_flatten_of_mem hf).length_le

namespace State.assembliesFull

variable {s t : State} {f : Fragment}

theorem same (h : s.assembliesFull) (hchn : t.chn = s.chn) : t.assembliesFull := by
  intro ch
  rw [State.chan, hchn]
  exact h ch

theorem set (h : s.assembliesFull) {ch : Chan} {r : ChanRec} (hchn : t.chn = s.chn.set ch r)
    (hr : ∀ a, r.assembly = some a → 1024 ≤ a.frags.flatten.length) : t.assembliesFull := by
  intro d
  rw [State.chan, hchn]
  by_cases hd : d = ch
  · subst hd
    rwa [ChannelUnit.get_set_same]
  · rw [ChannelUnit.get_set_other _ _ hd]
    exact h d

theorem drop (h : s.assembliesFull) {ch : Chan} {r : ChanRec} (hchn : t.chn = s.chn.set ch r)
    (hr : r.assembly = none) : t.assembliesFull :=
  h.set hchn fun _ ha => nomatch hr.symm.trans ha

theorem complete (h : s.assembliesFull) (ch : Chan) (seq : SeqNo) (kind : Byte) (p : List Byte) :
    (s.complete ch seq kind p).assembliesFull := by
  rcases s.complete_cases ch seq kind p with hdropped | ⟨-, ⟨⟨r, -, hnone, hchn⟩, -⟩ | ⟨-, ⟨r, -, hnone, hchn⟩, -⟩⟩
  · rw [hdropped]
    exact h.drop (ch := ch) (r := { s.chan ch with state := .idle, assembly := none }) rfl rfl
  · exact h.drop hchn hnone
  · exact h.drop hchn hnone

theorem dropAssembly (h : s.assembliesFull) (ch : Chan) : (s.dropAssembly ch).assembliesFull := h.drop rfl rfl

theorem idleFragment (h : s.assembliesFull) : (s.idleFragment f).assembliesFull := by
  unfold State.idleFragment
  simp only []
  split
  · exact h.same (by simp)
  · split
    · split
      · split
        · exact h.complete _ _ _ _
        · next hlast =>
          split
          · exact (h.dropAssembly f.ch).same (by simp [State.refuseSize])
          · next hsize =>
            obtain ⟨hlen, -⟩ := Fragment.full_of_badSize_false hsize hlast
            refine h.set rfl fun a ha => ?_
            obtain rfl := Option.some.inj ha
            simp [hlen]
      · exact h
    · unfold State.outOfSequence
      simp only []
      split
      · split
        · exact h.same (by simp)
        · exact h
      · refine State.assembliesFull.same (s := s.setChan f.ch { s.chan f.ch with state := .halted }) ?_ (by simp)
        exact h.set rfl (h f.ch)

theorem assemblingFragment (h : s.assembliesFull) {a : Assembly} (ha : (s.chan f.ch).assembly = some a) :
    (s.assemblingFragment f a).assembliesFull := by
  unfold State.assemblingFragment
  split
  · split
    · split
      · exact (h.dropAssembly f.ch).same (by simp [State.refuseSize])
      · split
        · exact h.complete _ _ _ _
        · refine h.set rfl fun b hb => ?_
          obtain rfl := Option.some.inj hb
          have := h f.ch a ha
          simp only [List.flatten_append, List.length_append]
          omega
    · split
      · exact h
      · exact (h.dropAssembly f.ch).same (by simp)
  · exact (h.dropAssembly f.ch).idleFragment

theorem resyncFragment (h : s.assembliesFull) : (s.resyncFragment f).assembliesFull := by
  unfold State.resyncFragment
  split
  · exact h
  · split
    · exact h.same (by simp)
    · split
      · cases hrefusal : s.genericRefusal f.kind f.ch f.payload with
        | some refusal =>
          rw [s.judgeResync_refused hrefusal]
          exact h
        | none =>
          rw [s.judgeResync_taken hrefusal]
          exact h.drop (r := .answered _ _) rfl rfl
      · exact h

theorem fragment (h : s.assembliesFull) (f : Fragment) : (s.fragment f).assembliesFull := by
  unfold State.fragment
  split
  · exact h.resyncFragment
  · split
    · next ha => exact h.assemblingFragment ha
    · exact h.same (by simp)
    · exact h.same (by simp)
    · exact h.idleFragment

theorem timeOut (h : s.assembliesFull) (ch : Chan) : (s.timeOut ch).assembliesFull := by
  unfold State.timeOut
  split
  · split
    · exact (h.dropAssembly ch).same (by simp)
    · exact h
  · exact h

theorem settle (h : s.assembliesFull) : s.settle.assembliesFull := by
  have happlied : s.applyDue.assembliesFull := by
    unfold State.applyDue
    split
    · exact h.same (by simp [State.applySet, State.activeMoves_frame])
    · exact h
  unfold State.settle
  split
  · have htimed (chs : List Chan) {u : State} (hu : u.assembliesFull) : (chs.foldl State.timeOut u).assembliesFull := by
      induction chs generalizing u with
      | nil => exact hu
      | cons ch chs ih => exact ih (hu.timeOut ch)
    exact htimed [0, 1, 2, 3] happlied
  · exact h

end State.assembliesFull

/-- A fragment of another message than a SEG_CREATE leaves the memory as it was. -/
theorem State.fragment_mem {s : State} (hfull : s.assembliesFull) {f : Fragment} {k : Kind} (hkind : f.kind = k.code)
    (hk : k ≠ .segCreate) : (s.fragment f).store.mem = s.store.mem := by
  rcases s.fragment_still_or_owned f with h | ⟨kind, p, hcompletes, k', v, hk', hlen, hv, ht⟩
  · rw [h.store]
  · have hnot : k' ≠ .segCreate := by
      rintro rfl
      rcases hcompletes with ⟨rfl, -⟩ | ⟨a, ha, -, rfl⟩
      · rw [hkind, Kind.ofCode?_code] at hk'
        exact hk (Option.some.inj hk')
      · have hlong := hfull f.ch a ha
        have hshort : (a.frags ++ [f.payload]).flatten.length = 8 := (Kind.lengthAllowed_iff .segCreate _).mp hlen
        rw [List.flatten_append, List.length_append] at hshort
        omega
    rw [ht.store, v.dispatch_mem hnot, hv.store]

/-- A whole message of another kind leaves the memory as it was. -/
theorem State.receive_mem {s : State} (hfull : s.assembliesFull) {k : Kind} (hk : k ≠ .segCreate) (ch : Chan)
    (seq : SeqNo) (p : List Byte) : (s.receive k ch seq p).store.mem = s.store.mem := by
  have hfold (fs : List Fragment) (hfs : ∀ f ∈ fs, f.kind = k.code) :
      (fs.foldl State.fragment s).store.mem = s.store.mem := by
    induction fs generalizing s with
    | nil => rfl
    | cons f fs ih =>
      obtain ⟨hf, hfs⟩ := List.forall_mem_cons.mp hfs
      exact (ih (hfull.fragment f) hfs).trans (State.fragment_mem hfull hf hk)
  unfold State.receive
  split
  · refine hfold _ fun f hf => ?_
    obtain ⟨c, -, rfl⟩ := List.mem_map.mp hf
    rfl
  · rfl

/-- Settles O35: an event that stores nothing leaves the memory alone, and so does each fragment of a message other than
a SEG_CREATE. -/
theorem memoryChangesOnlyByStoring : Obligations.MemoryChangesOnlyByStoring := by
  intro i s t hlaw hexec hi a
  have hmem : (s.after i).store.mem = s.store.mem := by
    have hmessage {k : Kind} (hk : k ≠ .segCreate) (ch : Chan) (seq : SeqNo) (p : List Byte) :
        (s.settle.receive k ch seq p).store.mem = s.store.mem :=
      (State.receive_mem (State.assembliesFull_of_channelLaw hlaw).settle hk ch seq p).trans
        (State.settle_acts s).mem_eq
    cases i with
    | hardReset | lineMarker | inputFrameHead | segCreate | segWriteCompletion => exact hi.elim
    | absenceExpiry | generatorLineBegin | holdoverLimitReached | setApplication | assemblyTimeout
    | responseEmission | verifyCompletion | partResetEffect => exact (State.event_acts (by trivial) s).mem_eq
    | _ => exact hmessage (by decide) _ _ _
  rw [exec_next] at hexec
  cases hexec
  rw [hmem]

end Sys2Proof.Machine
